-- ==== Sys2Proof/Word.lean ====
section
/-!
DEFINITION. The word types of the block (rule R7): every value is an unsigned bit vector, bit 0 the least significant.
-/
namespace Sys2Proof

/-- A byte: an 8-bit unsigned value (rule R7). -/
abbrev Byte := BitVec 8

/-- A u64: a Device Address or a discrepancy mask (rules R7, R22, R23). -/
abbrev Word64 := BitVec 64

/-- A command word (rule R80). -/
abbrev CommandWord := BitVec 16

end Sys2Proof
end

