-- ==== Sys2Proof/Syntax.lean ====
section
/-!
DEFINITION. The eleven commands of rule R83, one constructor per row of the opcode table.
-/
namespace Sys2Proof

/-- A command (rule R83). Operands that do not fit the command word are in registers (rule R81). -/
inductive Instr where
  /-- `RESET` (rule R100). -/
  | reset
  /-- `WRITE_BIT b` (rule R101). -/
  | writeBit (b : Bool)
  /-- `READ_BIT` (rule R102). -/
  | readBit
  /-- `WRITE_BYTE v` (rule R103). -/
  | writeByte (v : Byte)
  /-- `READ_BYTE` (rule R104). -/
  | readByte
  /-- `CRC_COMPUTE n` (rule R120). -/
  | crcCompute (n : BitVec 4)
  /-- `CRC_VERIFY n` (rule R121). -/
  | crcVerify (n : BitVec 4)
  /-- `READ_ADDRESS` (rule R130). -/
  | readAddress
  /-- `MATCH_ADDRESS` (rule R131). -/
  | matchAddress
  /-- `SKIP_ADDRESS` (rule R132). -/
  | skipAddress
  /-- `SEARCH f`, `f` the alarm flag (rule R140). -/
  | search (f : Bool)
  deriving DecidableEq, Repr

end Sys2Proof
end

