-- ==== Sys2Proof/WellFormed.lean ====
section
/-!
DEFINITION. Which commands have a word: the length operand of format L is at most 9 (rules R81, R83); every other
operand is in range by its type.
-/
namespace Sys2Proof

/-- The constraint of format L, `n <= 9` (rules R81, R83). -/
def lengthOk (n : BitVec 4) : Bool := decide (n.toNat ≤ 9)

/-- A command that some word of rule R83 encodes. -/
def Instr.wellFormed : Instr → Bool
  | .reset => true
  | .writeBit _ => true
  | .readBit => true
  | .writeByte _ => true
  | .readByte => true
  | .crcCompute n => lengthOk n
  | .crcVerify n => lengthOk n
  | .readAddress => true
  | .matchAddress => true
  | .skipAddress => true
  | .search _ => true

end Sys2Proof
end

