-- ==== Sys2Proof/Decode.lean ====
section
/-!
DEFINITION. The decoder of the 16-bit command word (rules R80 to R83, R90), total on any bytes and refusing by name,
and the encoder written from the same table.
-/
namespace Sys2Proof

/-- Why a word is illegal (rule R90). -/
inductive DecodeError where
  /-- `OPC` is none of the eleven of rule R83. -/
  | noSuchOpcode
  /-- A "must be 0" field of rule R81 is not 0. -/
  | mustBeZero
  /-- A format-L length of 10 to 15. -/
  | lengthAboveNine
  /-- Not the two bytes of a command word: no command is issued (rules R28, R63). -/
  | notAWord
  deriving DecidableEq, Repr

/-- `CW[15:8] = OPC` (rule R80). -/
def opcodeField (w : CommandWord) : Byte := w.extractLsb' 8 8

/-- `CW[7:0] = IMM` (rule R80). -/
def immediateField (w : CommandWord) : Byte := w.extractLsb' 0 8

/-- Format N: `IMM` must be 0 (rule R81). -/
def formatN (imm : Byte) (i : Instr) : Except DecodeError Instr :=
  if imm = 0 then .ok i else .error .mustBeZero

/-- Format B: `IMM[7:1]` must be 0 and `IMM[0]` is the bit (rule R81). -/
def formatB (imm : Byte) (mk : Bool → Instr) : Except DecodeError Instr :=
  if imm.extractLsb' 1 7 = 0 then .ok (mk (imm.getLsbD 0)) else .error .mustBeZero

/-- Format Y: `IMM` is the byte (rule R81). -/
def formatY (imm : Byte) (mk : Byte → Instr) : Except DecodeError Instr :=
  .ok (mk imm)

/-- Format L: `IMM[7:4]` must be 0 and `IMM[3:0]` is the length, 0 to 9 (rule R81). -/
def formatL (imm : Byte) (mk : BitVec 4 → Instr) : Except DecodeError Instr :=
  if imm.extractLsb' 4 4 = 0 then
    if lengthOk (imm.extractLsb' 0 4) then .ok (mk (imm.extractLsb' 0 4)) else .error .lengthAboveNine
  else .error .mustBeZero

/-- The command a word stands for, or why it is illegal (rules R83, R90). -/
def decode (w : CommandWord) : Except DecodeError Instr :=
  match (opcodeField w).toNat with
  | 0x01 => formatN (immediateField w) .reset
  | 0x02 => formatB (immediateField w) .writeBit
  | 0x03 => formatN (immediateField w) .readBit
  | 0x04 => formatY (immediateField w) .writeByte
  | 0x05 => formatN (immediateField w) .readByte
  | 0x10 => formatL (immediateField w) .crcCompute
  | 0x11 => formatL (immediateField w) .crcVerify
  | 0x20 => formatN (immediateField w) .readAddress
  | 0x21 => formatN (immediateField w) .matchAddress
  | 0x22 => formatN (immediateField w) .skipAddress
  | 0x30 => formatB (immediateField w) .search
  | _ => .error .noSuchOpcode

/-- The two bytes of a word as the window lays them out, low byte at offset 0x00 (rule R21). -/
def wordBytes (w : CommandWord) : List Byte := [w.extractLsb' 0 8, w.extractLsb' 8 8]

/-- The command that the bytes written to `CMD`, lowest offset first, stand for (rules R21, R28). -/
def decodeBytes : List Byte → Except DecodeError Instr
  | [lo, hi] => decode (hi ++ lo)
  | _ => .error .notAWord

/-- `OPC` of each command (rule R83). -/
def opcodeOf : Instr → Byte
  | .reset => 0x01
  | .writeBit _ => 0x02
  | .readBit => 0x03
  | .writeByte _ => 0x04
  | .readByte => 0x05
  | .crcCompute _ => 0x10
  | .crcVerify _ => 0x11
  | .readAddress => 0x20
  | .matchAddress => 0x21
  | .skipAddress => 0x22
  | .search _ => 0x30

/-- `IMM` of each command, by its format (rule R81). -/
def immediateOf : Instr → Byte
  | .reset => 0
  | .writeBit b => (BitVec.ofBool b).setWidth 8
  | .readBit => 0
  | .writeByte v => v
  | .readByte => 0
  | .crcCompute n => n.setWidth 8
  | .crcVerify n => n.setWidth 8
  | .readAddress => 0
  | .matchAddress => 0
  | .skipAddress => 0
  | .search f => (BitVec.ofBool f).setWidth 8

/-- The word of a command (rules R80, R81, R83). -/
def encode (i : Instr) : CommandWord := opcodeOf i ++ immediateOf i

/-- A row of the table of rule R83: a word `w` selects it when `w AND mask = match` and the constraint holds. -/
structure Row where
  mnemonic : String
  mask : CommandWord
  pattern : CommandWord
  /-- The row carries the constraint `n <= 9` on `CW[3:0]`. -/
  lengthLimited : Bool
  deriving DecidableEq, Repr

/-- The table of rule R83, in its order. -/
def opcodeRows : List Row :=
  [⟨"RESET", 0xFFFF, 0x0100, false⟩, ⟨"WRITE_BIT", 0xFFFE, 0x0200, false⟩, ⟨"READ_BIT", 0xFFFF, 0x0300, false⟩,
   ⟨"WRITE_BYTE", 0xFF00, 0x0400, false⟩, ⟨"READ_BYTE", 0xFFFF, 0x0500, false⟩] ++
  [⟨"CRC_COMPUTE", 0xFFF0, 0x1000, true⟩, ⟨"CRC_VERIFY", 0xFFF0, 0x1100, true⟩] ++
  [⟨"READ_ADDRESS", 0xFFFF, 0x2000, false⟩, ⟨"MATCH_ADDRESS", 0xFFFF, 0x2100, false⟩,
   ⟨"SKIP_ADDRESS", 0xFFFF, 0x2200, false⟩, ⟨"SEARCH", 0xFFFE, 0x3000, false⟩]

/-- The row of each command (rule R83). -/
def rowOf : Instr → Row
  | .reset => ⟨"RESET", 0xFFFF, 0x0100, false⟩
  | .writeBit _ => ⟨"WRITE_BIT", 0xFFFE, 0x0200, false⟩
  | .readBit => ⟨"READ_BIT", 0xFFFF, 0x0300, false⟩
  | .writeByte _ => ⟨"WRITE_BYTE", 0xFF00, 0x0400, false⟩
  | .readByte => ⟨"READ_BYTE", 0xFFFF, 0x0500, false⟩
  | .crcCompute _ => ⟨"CRC_COMPUTE", 0xFFF0, 0x1000, true⟩
  | .crcVerify _ => ⟨"CRC_VERIFY", 0xFFF0, 0x1100, true⟩
  | .readAddress => ⟨"READ_ADDRESS", 0xFFFF, 0x2000, false⟩
  | .matchAddress => ⟨"MATCH_ADDRESS", 0xFFFF, 0x2100, false⟩
  | .skipAddress => ⟨"SKIP_ADDRESS", 0xFFFF, 0x2200, false⟩
  | .search _ => ⟨"SEARCH", 0xFFFE, 0x3000, false⟩

/-- A word selects a row (rule R83). -/
def selectsRow (w : CommandWord) (r : Row) : Bool :=
  (w &&& r.mask == r.pattern) && (!r.lengthLimited || lengthOk (w.extractLsb' 0 4))

/-- The command word whose bits, numbered as the opcode table numbers them, are the low `nbits` bits of `w`: every bit
above `nbits` is 0. -/
def tableWord (nbits w : Nat) : CommandWord := BitVec.ofNat 16 (w % 2 ^ nbits)

/-- What the decoder reads from the table's bits `w`, laid out as the two bytes of `CMD` (rule R21). -/
def decodeTableWord (nbits w : Nat) : Option Instr :=
  match decodeBytes (wordBytes (tableWord nbits w)) with
  | .ok i => some i
  | .error _ => none

end Sys2Proof
end

