-- ==== Sys2Proof/Config.lean ====
section
/-!
DEFINITION. What an implementation fixes (the named parameters of rule R6) and the free values: the answers of the
Bus Channel (rule R52) and the bytes a hardware reset leaves unspecified (rule R34).
-/
namespace Sys2Proof

/-- The named bytes of rule R6 that the source does not fix. The block carries them in its state as
constants of the implementation (no step changes them), so a claim about every state holds for every choice of them;
`Machine.defaultParams` holds the defaults of rule R6. -/
structure Params where
  /-- `RESET_PATTERN` (rules R6, R84). -/
  resetPattern : Byte
  /-- `WRITE1_BYTE`, "a full-high byte" (rules R6, R84, R101, D10). -/
  write1Byte : Byte
  /-- `RD_THRESHOLD` (rules R6, R84, R102). -/
  rdThreshold : Byte
  /-- `CMD_READ_ADDRESS` (rule R85). -/
  cmdReadAddress : Byte
  /-- `CMD_MATCH_ADDRESS` (rule R85). -/
  cmdMatchAddress : Byte
  /-- `CMD_SKIP_ADDRESS` (rule R85). -/
  cmdSkipAddress : Byte
  /-- `CMD_SEARCH` (rule R85). -/
  cmdSearch : Byte
  /-- `CMD_SEARCH_ALARM` (rule R85). -/
  cmdSearchAlarm : Byte
  /-- `CMD_CONVERT` (rules R85, R171), used by host software only. -/
  cmdConvert : Byte
  /-- `CMD_READ_SCRATCHPAD` (rules R85, R172), used by host software only. -/
  cmdReadScratchpad : Byte
  /-- `NEG_THRESHOLD` (rules R6, R174), used by host software only. -/
  negThreshold : Byte
  deriving DecidableEq, Repr

/-- `FLUSH_ORDER` (rules R6, R54): the order of the two primitive flushes inside one `ChFlush`. OPEN in the spec, so
whatever depends on it takes it as an argument. -/
inductive FlushOrder where
  | inThenOut
  | outThenIn
  deriving DecidableEq, Repr

/-- `FLOAT_FORMAT` (rules R6, R174, R175, D25): a number format, given by its values, the one it holds for a rational
number, the number a value stands for, and the negation of a value. Two values may stand for one number, as the two zeros
of a floating-point format do. OPEN in the spec, so whatever depends on it takes it as an argument; host software only. -/
structure FloatFormat where
  Value : Type
  ofRat : Rat → Value
  toRat : Value → Rat
  neg : Value → Value
  toRat_neg : ∀ v, toRat (neg v) = -toRat v

/-- A floating-point number that is finite: a sign and a magnitude, so that there is a negative zero (rule R175 item iv). -/
structure SignedValue where
  negative : Bool
  magnitude : Rat
  deriving DecidableEq, Repr

/-- FREE VALUE (rule R52): what the channel answers to its `n`-th `ChSend` where the state's script does not say. No
body: nothing can be proved of its values. -/
opaque Config.freeSend : Nat → Bool

/-- FREE VALUE (rule R52): what the channel answers to its `n`-th `ChRecv` where the state's script does not say. -/
opaque Config.freeRecv : Nat → Option Byte

/-- FREE VALUE (rule R34, U10): the bytes a hardware reset leaves in `DATA` and `BUF`, one for each draw. -/
opaque Config.freeByte : Nat → Byte

end Sys2Proof
end

