-- ==== Sys2Proof/Machine/Defaults.lean ====
section
/-!
DEFINITION. The defaults of the named parameters of rule R6 and the values it fixes.
-/
namespace Sys2Proof.Machine

/-- The defaults of rule R6 (those marked GK there are from general knowledge, not from the source). -/
def defaultParams : Params where
  resetPattern := 0xF0
  write1Byte := 0xFF
  rdThreshold := 0xFE
  cmdReadAddress := 0x33
  cmdMatchAddress := 0x55
  cmdSkipAddress := 0xCC
  cmdSearch := 0xF0
  cmdSearchAlarm := 0xEC
  cmdConvert := 0x44
  cmdReadScratchpad := 0xBE
  negThreshold := 0x80

/-- `WRITE0_BYTE`, "a zero byte" (rules R6, R84, R101). -/
def write0Byte : Byte := 0x00

/-- `READ_BYTE_OUT`, "an all-ones byte (to float the line)" (rules R6, R84, R102). -/
def readByteOut : Byte := 0xFF

/-- `CRC_POLY_REFLECTED` (rules R6, R120). -/
def crcPolyReflected : Byte := 0x8C

/-- `CRC_SEED` (rules R6, R120). -/
def crcSeed : Byte := 0x00

end Sys2Proof.Machine
end

