-- ==== Sys2Proof/Machine/State.lean ====
section
/-!
DEFINITION. The state of the block and of its two ports, as plain data: the registers of rule R21, the Bus Channel as
the block meets it (rules R10, R51, R52), the accesses the host makes (rules R5, R21, R28) and the parameters of rule R6.
-/
namespace Sys2Proof.Machine

/-- The two transfer rates (rule R53). -/
inductive Rate where
  | slow
  | fast
  deriving DecidableEq, Repr

/-- One call of a channel primitive with its answer (rule R10). -/
inductive Event where
  /-- `Rate(r)` (rule R53). -/
  | rate (r : Rate)
  /-- `Flush`, one event for the composite of both directions (rule R54). -/
  | flush
  /-- `Send(b) -> ok` or `Send(b) -> fail` (rule R55). -/
  | send (b : Byte) (ok : Bool)
  /-- `Recv -> v` or `Recv -> none` (rule R56). -/
  | recv (v : Option Byte)
  deriving DecidableEq, Repr

/-- The Bus Channel (rules R51, R52) as the block meets it: what it will answer, and the trace of what it was asked.
The `n`-th `ChSend` is answered by entry `n` of `sendScript`, or by a free value past its end; likewise `ChRecv`. -/
structure Channel where
  /-- Answers to `ChSend`: `true` is `ok` (rule R55). An input: no command changes it. -/
  sendScript : List Bool
  /-- Answers to `ChRecv`: a byte or nothing (rule R56). An input: no command changes it. -/
  recvScript : List (Option Byte)
  /-- The number of the `ChSend` that never returns, if one never does (rule R72, U12). An input. -/
  hangAt : Option Nat
  /-- How many `ChSend` calls were made: the number of the next one. -/
  sends : Nat
  /-- How many `ChRecv` calls were made: the number of the next one. -/
  recvs : Nat
  /-- The events of all commands so far, newest first; `Channel.trace` gives them in their order (rules R10, R67). -/
  log : List Event
  deriving DecidableEq, Repr

/-- The two registers wider than a byte that the host may access whole (rules R21, R63). -/
inductive WideRegister where
  | addr
  | disc
  deriving DecidableEq, Repr

/-- An access of the host to the register window that issues no command (rules R21, R28, R50, R63). -/
inductive WindowAccess where
  /-- Write one byte at an offset; at an offset of `CMD` it has no effect (rule R28). -/
  | writeByte (offset : BitVec 6) (v : Byte)
  /-- Write `ADDR` or `DISC` whole. -/
  | writeWide (r : WideRegister) (v : Word64)
  /-- Read one byte at an offset. -/
  | readByte (offset : BitVec 6)
  /-- Read `ADDR` or `DISC` whole. -/
  | readWide (r : WideRegister)
  /-- Read the 16 bits of `CMD`. -/
  | readCommand
  deriving DecidableEq, Repr

/-- What the outside world does to the block between commands (rules R5, R28, R34). -/
inductive Input where
  /-- The host writes the 16-bit word to `CMD`, which issues the command (rule R28). -/
  | command (w : CommandWord)
  /-- The host reads or writes another register. -/
  | window (a : WindowAccess)
  /-- Power-on or the block's reset input (rules R34, R220, R222). -/
  | hardwareReset
  deriving DecidableEq, Repr

/-- The error kinds, a closed set with no payload (rule R190). -/
inductive ErrorKind where
  | channelFailure
  | resetFailure
  | checksumMismatch
  | unexpectedResponse
  deriving DecidableEq, Repr

/-- Why the machine stops. -/
inductive Fault where
  /-- Raised by a command one of whose `ChSend` calls never returns: "hangs the command and the host with it" (rule
  R72, U12). Safe: the hardware makes no further step either. -/
  | channelHang
  deriving DecidableEq, Repr

/-- Why a command has no meaning in the model. -/
inductive Refusal where
  /-- Raised by `exec` alone, for a command not modelled yet (no arm is left that raises it). Safe: nothing is claimed
  of the command. -/
  | notModelled (mnemonic : String)
  deriving DecidableEq, Repr

/-- The whole state. -/
structure State where
  /-- `STATUS`, register 1 (rule R25). -/
  status : Byte
  /-- `DATA`, register 2 (rule R26). -/
  data : Byte
  /-- `LDI[5:0]`, register 3 (rule R23). -/
  ldi : BitVec 6
  /-- `SSV[0]`, register 4 (rule R24). -/
  ssv : Bool
  /-- `ADDR`, register 5 (rule R22). -/
  addr : Word64
  /-- `DISC`, register 6 (rule R23). -/
  disc : Word64
  /-- `BUF[0]` to `BUF[8]`, register 7 (rule R27). -/
  buf : Vector Byte 9
  /-- The Bus Channel (rules R10, R51, R52). -/
  chan : Channel
  /-- The parameters of the implementation (rule R6). No step changes them. -/
  params : Params
  /-- What the host and the reset input do next, oldest first (rules R5, R236). -/
  pending : List Input
  /-- What the host's reads of the window returned, oldest first, zero-extended (rules R5, R21). -/
  reads : List Word64
  /-- How many free bytes hardware resets have drawn (rule R34, U10). -/
  freeBytes : Nat
  deriving DecidableEq, Repr

/-- A channel that has made no event (rule R222) and whose answers are all free (rule R52). -/
def Channel.atReset : Channel where
  sendScript := []
  recvScript := []
  hangAt := none
  sends := 0
  recvs := 0
  log := []

/-- The block right after reset (rules R34, R220). `DATA` and `BUF`, which the spec leaves unspecified, are 0 here: a
DESIGN CHOICE, log entry 1. -/
def State.reset : State where
  status := 0x00
  data := 0x00
  ldi := 0
  ssv := false
  addr := 0
  disc := 0
  buf := #v[0, 0, 0, 0, 0, 0, 0, 0, 0]
  chan := Channel.atReset
  params := defaultParams
  pending := []
  reads := []
  freeBytes := 0

end Sys2Proof.Machine
end

