-- ==== Sys2Proof/Machine/Flags.lean ====
section
/-!
DEFINITION. The `STATUS` register: its code, its flag and the word each outcome leaves (rules R25, R32, R196, R202).
-/
namespace Sys2Proof.Machine

/-- `CODE = OK` (rule R25). -/
def codeOk : BitVec 4 := 0x0

/-- `CODE = IllegalCommand` (rules R25, R90). -/
def codeIllegalCommand : BitVec 4 := 0xF

/-- The code of each error kind (rules R25, R202). -/
def codeOf : ErrorKind → BitVec 4
  | .channelFailure => 0x1
  | .resetFailure => 0x2
  | .checksumMismatch => 0x3
  | .unexpectedResponse => 0x4

/-- `STATUS[3:0] = CODE`, `STATUS[4] = FLAG`, `STATUS[7:5] = 0` (rule R25). -/
def statusWord (code : BitVec 4) (flag : Bool) : Byte := (0 : BitVec 3) ++ BitVec.ofBool flag ++ code

/-- `STATUS` after a command that ends with `OK` and the given flag (rule R32). -/
def okStatus (flag : Bool) : Byte := statusWord codeOk flag

/-- `STATUS` after a command that ends with an error: FLAG = 0 (rules R32, R196). -/
def errorStatus (k : ErrorKind) : Byte := statusWord (codeOf k) false

/-- `STATUS` after an illegal word, 0x0F (rule R90). -/
def illegalStatus : Byte := statusWord codeIllegalCommand false

/-- `STATUS.CODE` (rule R25). -/
def statusCode (status : Byte) : BitVec 4 := status.extractLsb' 0 4

/-- `STATUS.FLAG` (rules R25, R32). -/
def statusFlag (status : Byte) : Bool := status.getLsbD 4

end Sys2Proof.Machine
end

