-- ==== Sys2Proof/Machine/Operands.lean ====
section
/-!
DEFINITION. Bits, bytes and byte lanes (rules R7, R61, R62), and the operands a command takes from registers
(rules R27, R81, R82).
-/
namespace Sys2Proof.Machine

/-- `v[i] <- b` (rule R7). -/
def setBit {w : Nat} (v : BitVec w) (i : Nat) (b : Bool) : BitVec w :=
  if b then v ||| (1#w <<< i) else v &&& ~~~(1#w <<< i)

/-- `a.B[k] = a[8k+7:8k]` (rules R7, R61). -/
def byteLane (a : Word64) (k : Nat) : Byte := a.extractLsb' (8 * k) 8

/-- `a.B[k] <- v` (rules R8, R61). -/
def setByteLane (a : Word64) (k : Nat) (v : Byte) : Word64 :=
  (a &&& ~~~(0xFF#64 <<< (8 * k))) ||| (v.setWidth 64 <<< (8 * k))

/-- The eight bytes of a Device Address, byte 0 (the family code) first (rules R60, R86). -/
def addressBytes (a : Word64) : List Byte :=
  [byteLane a 0, byteLane a 1, byteLane a 2, byteLane a 3, byteLane a 4, byteLane a 5, byteLane a 6, byteLane a 7]

/-- `BUF[j]`, and 0 past the ninth byte (rule R27). -/
def bufByte (s : State) (j : Nat) : Byte := if h : j < 9 then s.buf[j] else 0

/-- The operand of the checksum commands, `BUF[0], ..., BUF[n-1]` (rules R27, R120, R121). -/
def bufPrefix (s : State) (n : BitVec 4) : List Byte := s.buf.toList.take n.toNat

end Sys2Proof.Machine
end

