-- ==== Sys2Proof/Machine/Ops.lean ====
section
/-!
DEFINITION. The named operations: channel calls and how they are sequenced (rules R8, R9, R53 to R57, R67), register
writes (rule R38), and how a command ends: with a result, with an error (rule R196), as an illegal word (rule R90), or
not at all (rule R72).
-/
namespace Sys2Proof.Machine

/-- The answer to the channel's `n`-th `ChSend` (rules R52, R55). -/
def Channel.sendAnswer (c : Channel) (n : Nat) : Bool := (c.sendScript[n]?).getD (Config.freeSend n)

/-- The answer to the channel's `n`-th `ChRecv` (rules R52, R56). -/
def Channel.recvAnswer (c : Channel) (n : Nat) : Option Byte := (c.recvScript[n]?).getD (Config.freeRecv n)

/-- The events so far, oldest first: the concatenation of the traces of the commands (rules R10, R67). -/
def Channel.trace (c : Channel) : List Event := c.log.reverse

/-- How a sub-operation ends, `Ok(v)` or `Err(K)` (rule R9), and the channel it leaves. -/
structure Run (α : Type) where
  outcome : Except ErrorKind α
  chan : Channel

/-- A sub-operation: a sequence of channel calls (rule R8). -/
def Op (α : Type) : Type := Channel → Run α

/-- `return v` (rule R8). -/
def Op.pure {α : Type} (v : α) : Op α := fun c => ⟨.ok v, c⟩

/-- `raise K` (rules R8, R190). -/
def Op.raise {α : Type} (k : ErrorKind) : Op α := fun c => ⟨.error k, c⟩

/-- What `bind` does once the first sub-operation has run. -/
def Run.andThen {α β : Type} (r : Run α) (f : α → Op β) : Run β :=
  match r.outcome with
  | .ok v => f v r.chan
  | .error k => ⟨.error k, r.chan⟩

/-- One sub-operation and then another; an error of the first ends both (rules R190, R197). -/
def Op.bind {α β : Type} (o : Op α) (f : α → Op β) : Op β := fun c => (o c).andThen f

/-- `for i in i .. i+n-1`, in rising order, carrying a value; an error ends the loop (rule R8). -/
def Op.loop {α : Type} (body : Nat → α → Op α) (i : Nat) : Nat → α → Op α
  | 0, v => Op.pure v
  | n + 1, v => (body i v).bind fun v' => Op.loop body (i + 1) n v'

/-- `ChRate(r)` (rule R53). -/
def chRate (r : Rate) : Op Unit := fun c => ⟨.ok (), { c with log := .rate r :: c.log }⟩

/-- `ChFlush()` (rule R54). -/
def chFlush : Op Unit := fun c => ⟨.ok (), { c with log := .flush :: c.log }⟩

/-- `ChSend(b)` (rule R55). -/
def chSend (b : Byte) : Op Bool := fun c =>
  ⟨.ok (c.sendAnswer c.sends),
    { c with sends := c.sends + 1, log := .send b (c.sendAnswer c.sends) :: c.log }⟩

/-- `ChRecv()` (rule R56). -/
def chRecv : Op (Option Byte) := fun c =>
  ⟨.ok (c.recvAnswer c.recvs),
    { c with recvs := c.recvs + 1, log := .recv (c.recvAnswer c.recvs) :: c.log }⟩

/-- `ChSend`, a `fail` raising `ChannelFailure` at once (rules R55, R106, R191). -/
def transmit (b : Byte) : Op Unit :=
  (chSend b).bind fun ok => if ok then .pure () else .raise .channelFailure

/-- `ChRecv`, called once, `none` raising `ChannelFailure` (rules R56, R107, R191). -/
def receive : Op Byte :=
  chRecv.bind fun v => match v with
    | some b => .pure b
    | none => .raise .channelFailure

/-- The head of every reset and bit slot: its rate, a flush, the byte (rule R105). -/
def slot (r : Rate) (b : Byte) : Op Unit :=
  (chRate r).bind fun _ => chFlush.bind fun _ => transmit b

/-- Write `STATUS` (rule R25). -/
def State.setStatus (s : State) (v : Byte) : State := { s with status := v }

/-- Write `DATA` (rule R26). -/
def State.setData (s : State) (v : Byte) : State := { s with data := v }

/-- Write `LDI`, whose bits 7:6 are not stored (rules R21, R23). -/
def State.setLdi (s : State) (v : BitVec 6) : State := { s with ldi := v }

/-- Write `SSV`, whose bits 7:1 are not stored (rules R21, R24). -/
def State.setSsv (s : State) (v : Bool) : State := { s with ssv := v }

/-- Write `ADDR` (rule R22). -/
def State.setAddr (s : State) (v : Word64) : State := { s with addr := v }

/-- Write `DISC` (rule R23). -/
def State.setDisc (s : State) (v : Word64) : State := { s with disc := v }

/-- Write `BUF` (rule R27). -/
def State.setBuf (s : State) (v : Vector Byte 9) : State := { s with buf := v }

/-- The channel as a command left it. -/
def State.setChan (s : State) (c : Channel) : State := { s with chan := c }

/-- What the outside world does next. -/
def State.setPending (s : State) (l : List Input) : State := { s with pending := l }

/-- The value a host read returned. -/
def State.pushRead (s : State) (v : Word64) : State := { s with reads := s.reads ++ [v] }

/-- The Search State a finding `SEARCH` commits: `ADDR`, `DISC`, `LDI` and `SSV <- 1` together (rule R149). -/
def State.setSearchState (s : State) (addr disc : Word64) (ldi : BitVec 6) : State :=
  { s with addr := addr, disc := disc, ldi := ldi, ssv := true }

/-- Ending a command with an error: `STATUS` and nothing else (rules R196, R199). The block has no handler, no saved
context and no return: the next command starts from the registers as this leaves them. -/
def endWithError (k : ErrorKind) (s : State) : State := s.setStatus (errorStatus k)

/-- An illegal word: no channel event, `STATUS <- 0x0F`, nothing else (rule R90). -/
def endIllegal (s : State) : State := s.setStatus illegalStatus

/-- Whether the `ChSend` that never returns is among those made between the two channels (rule R72, U12). -/
def hangs (before after : Channel) : Bool :=
  match before.hangAt with
  | none => false
  | some n => decide (before.sends ≤ n) && decide (n < after.sends)

/-- The state a command leaves: the commit on success, `STATUS` alone on an error (rules R38, R196). -/
def settle {α : Type} (s : State) (r : Run α) (commit : α → State → State) : State :=
  match r.outcome with
  | .ok v => commit v (s.setChan r.chan)
  | .error k => endWithError k (s.setChan r.chan)

/-- A command: its sub-operation runs to its end on the channel, then its registers and `STATUS` are written (rule R28);
unless a channel call never returned, and then neither does the command (rule R72). -/
def runCommand {α : Type} (s : State) (o : Op α) (commit : α → State → State) : Host.Outcome State Fault Refusal :=
  match hangs s.chan (o s.chan).chan with
  | true => .fault .channelHang
  | false => .next (settle s (o s.chan) commit)

end Sys2Proof.Machine
end

