-- ==== Sys2Proof/Machine/Transport.lean ====
section
/-!
DEFINITION. Family 0, the bit transport: `RESET`, `WRITE_BIT`, `READ_BIT`, `WRITE_BYTE`, `READ_BYTE`
(rules R100 to R108).
-/
namespace Sys2Proof.Machine

/-- `reset()`: `true` is device present (rule R100). -/
def busReset (p : Params) : Op Bool :=
  (slot .slow p.resetPattern).bind fun _ => receive.bind fun v => .pure (v != p.resetPattern)

/-- `write_bit(b)` (rule R101). -/
def writeBit (p : Params) (b : Bool) : Op Unit := slot .fast (if b then p.write1Byte else write0Byte)

/-- The bit an echoed byte is read as: 1 when it exceeds `RD_THRESHOLD`, unsigned and strict (rules R84, R102). -/
def sensedBit (p : Params) (v : Byte) : Bool := p.rdThreshold.ult v

/-- `read_bit()` (rule R102). -/
def readBit (p : Params) : Op Bool :=
  (slot .fast readByteOut).bind fun _ => receive.bind fun v => .pure (sensedBit p v)

/-- `write_byte(v)`: eight write slots, least significant bit first (rules R59, R103). -/
def writeByte (p : Params) (v : Byte) : Op Unit := Op.loop (fun i _ => writeBit p (v.getLsbD i)) 0 8 ()

/-- One turn of `read_byte`: the bit read lands at position `i` (rule R104). -/
def readBitInto (p : Params) (i : Nat) (v : Byte) : Op Byte :=
  (readBit p).bind fun r => .pure (setBit v i r)

/-- `read_byte()`: eight read slots, the first into bit 0 (rules R59, R104). -/
def readByte (p : Params) : Op Byte := Op.loop (readBitInto p) 0 8 0

/-- Command `RESET` (rule R100). -/
def execReset (s : State) : Host.Outcome State Fault Refusal :=
  runCommand s (busReset s.params) fun present t => t.setStatus (okStatus present)

/-- Command `WRITE_BIT b` (rule R101). -/
def execWriteBit (b : Bool) (s : State) : Host.Outcome State Fault Refusal :=
  runCommand s (writeBit s.params b) fun _ t => t.setStatus (okStatus false)

/-- Command `READ_BIT` (rule R102). -/
def execReadBit (s : State) : Host.Outcome State Fault Refusal :=
  runCommand s (readBit s.params) fun r t => (t.setData ((BitVec.ofBool r).setWidth 8)).setStatus (okStatus false)

/-- Command `WRITE_BYTE v` (rule R103). -/
def execWriteByte (v : Byte) (s : State) : Host.Outcome State Fault Refusal :=
  runCommand s (writeByte s.params v) fun _ t => t.setStatus (okStatus false)

/-- Command `READ_BYTE` (rule R104). -/
def execReadByte (s : State) : Host.Outcome State Fault Refusal :=
  runCommand s (readByte s.params) fun v t => (t.setData v).setStatus (okStatus false)

end Sys2Proof.Machine
end

