-- ==== Sys2Proof/Machine/RomAddressing.lean ====
section
/-!
DEFINITION. Family 2, ROM addressing: `READ_ADDRESS`, `MATCH_ADDRESS`, `SKIP_ADDRESS` (rules R130 to R135).
-/
namespace Sys2Proof.Machine

/-- The reset at the head of each of the three: no presence raises `ResetFailure`, a channel failure stays one
(rules R133, R134). -/
def resetOrFail (p : Params) : Op Unit :=
  (busReset p).bind fun present => if present then .pure () else .raise .resetFailure

/-- One turn of `read_address`: the byte read becomes byte `k` (rule R130). -/
def readByteInto (p : Params) (k : Nat) (a : Word64) : Op Word64 :=
  (readByte p).bind fun v => .pure (setByteLane a k v)

/-- `read_address()` (rule R130). -/
def readAddress (p : Params) : Op Word64 :=
  (resetOrFail p).bind fun _ => (writeByte p p.cmdReadAddress).bind fun _ => Op.loop (readByteInto p) 0 8 0

/-- `match_address(addr)` (rule R131). -/
def matchAddress (p : Params) (a : Word64) : Op Unit :=
  (resetOrFail p).bind fun _ => (writeByte p p.cmdMatchAddress).bind fun _ =>
    Op.loop (fun k _ => writeByte p (byteLane a k)) 0 8 ()

/-- `skip_address()` (rule R132). -/
def skipAddress (p : Params) : Op Unit :=
  (resetOrFail p).bind fun _ => writeByte p p.cmdSkipAddress

/-- Command `READ_ADDRESS` (rule R130). -/
def execReadAddress (s : State) : Host.Outcome State Fault Refusal :=
  runCommand s (readAddress s.params) fun a t => (t.setAddr a).setStatus (okStatus false)

/-- Command `MATCH_ADDRESS` (rule R131). -/
def execMatchAddress (s : State) : Host.Outcome State Fault Refusal :=
  runCommand s (matchAddress s.params s.addr) fun _ t => t.setStatus (okStatus false)

/-- Command `SKIP_ADDRESS` (rule R132). -/
def execSkipAddress (s : State) : Host.Outcome State Fault Refusal :=
  runCommand s (skipAddress s.params) fun _ t => t.setStatus (okStatus false)

end Sys2Proof.Machine
end

