-- ==== Sys2Proof/Machine/Integrity.lean ====
section
/-!
DEFINITION. Family 1, the integrity check: `CRC_COMPUTE` and `CRC_VERIFY` (rules R120 to R125). Neither makes a channel
event.
-/
namespace Sys2Proof.Machine

/-- One shift of the checksum register (rule R120). -/
def crcShift (crc : Byte) : Byte :=
  if crc.getLsbD 0 then (crc >>> 1) ^^^ crcPolyReflected else crc >>> 1

/-- `repeat n times` of the shift (rule R120). -/
def crcShifts : Nat → Byte → Byte
  | 0, crc => crc
  | n + 1, crc => crcShifts n (crcShift crc)

/-- One byte entering the checksum (rule R120). -/
def crcByte (crc d : Byte) : Byte := crcShifts 8 (crc ^^^ d)

/-- `crc8(s)` (rule R120). -/
def crc8 (s : List Byte) : Byte := s.foldl crcByte crcSeed

/-- `verify(s)`: the last byte is the checksum of the bytes before it; nothing to compare fails (rule R121). -/
def verify (s : List Byte) : Bool :=
  match s.getLast? with
  | none => false
  | some last => crc8 s.dropLast == last

/-- Command `CRC_COMPUTE n` (rule R120); a length above 9 is an illegal word (rule R90). -/
def execCrcCompute (n : BitVec 4) (s : State) : Host.Outcome State Fault Refusal :=
  if lengthOk n then .next ((s.setData (crc8 (bufPrefix s n))).setStatus (okStatus false))
  else .next (endIllegal s)

/-- Command `CRC_VERIFY n` (rule R121); a length above 9 is an illegal word (rule R90). -/
def execCrcVerify (n : BitVec 4) (s : State) : Host.Outcome State Fault Refusal :=
  if lengthOk n then .next (s.setStatus (okStatus (verify (bufPrefix s n))))
  else .next (endIllegal s)

end Sys2Proof.Machine
end

