-- ==== Sys2Proof/Machine/Search.lean ====
section
/-!
DEFINITION. Family 3, the device search: `SEARCH` (rules R140 to R157).
-/
namespace Sys2Proof.Machine

/-- The working values of a walk (rules R31, R156): address, discrepancy mask, running last-discrepancy index. -/
structure Walk where
  addr : Word64
  disc : Word64
  ldi : BitVec 6
  deriving DecidableEq, Repr

/-- The two response bits of a position, in the order read (rule R144). -/
def readPair (p : Params) : Op (Bool × Bool) :=
  (readBit p).bind fun r1 => (readBit p).bind fun r2 => .pure (r1, r2)

/-- The command byte of step 3 (rule R143). -/
def searchCommandByte (p : Params) (alarm : Bool) : Byte := if alarm then p.cmdSearchAlarm else p.cmdSearch

/-- Step 4 at position `i`: the pair is read and thrown away, a pending discrepancy becomes the running index, the old
bit is written back (rule R145). -/
def replayPosition (p : Params) (i : Nat) (w : Walk) : Op Walk :=
  (readPair p).bind fun _ => (writeBit p (w.addr.getLsbD i)).bind fun _ =>
    .pure (if w.disc.getLsbD i then { w with ldi := BitVec.ofNat 6 i } else w)

/-- Step 5 at position `q`: a collision is demanded, the bit forced to 1 and its discrepancy cleared (rule R146). -/
def forcedBranch (p : Params) (q : Nat) (w : Walk) : Op Walk :=
  (readPair p).bind fun r =>
    if r.1 || r.2 then .raise .unexpectedResponse
    else (writeBit p true).bind fun _ =>
      .pure { w with addr := setBit w.addr q true, disc := setBit w.disc q false }

/-- The chosen bit goes into the address and onto the bus (rules R147, R148). -/
def chooseBit (p : Params) (i : Nat) (c : Bool) (w : Walk) : Op Walk :=
  (writeBit p c).bind fun _ => .pure { w with addr := setBit w.addr i c }

/-- Step 6 at position `i`: the four outcomes (rules R144, R147). -/
def resolvePosition (p : Params) (i : Nat) (w : Walk) : Op Walk :=
  (readPair p).bind fun r => match r with
    | (true, true) => .raise .unexpectedResponse
    | (true, false) => chooseBit p i true w
    | (false, true) => chooseBit p i false w
    | (false, false) => chooseBit p i false { w with disc := setBit w.disc i true, ldi := BitVec.ofNat 6 i }

/-- Steps 4 to 6 over the 64 positions (rules R140, R145 to R148). -/
def walkPositions (p : Params) (ssv : Bool) (addr disc : Word64) (ldi : BitVec 6) : Op Walk :=
  if ssv then
    (Op.loop (replayPosition p) 0 ldi.toNat ⟨addr, disc, 0⟩).bind fun w =>
    (forcedBranch p ldi.toNat w).bind fun w =>
      Op.loop (resolvePosition p) (ldi.toNat + 1) (63 - ldi.toNat) w
  else Op.loop (resolvePosition p) 0 64 ⟨0, 0, 0⟩

/-- Step 7: the assembled address must pass the integrity check (rule R149). -/
def checkWalk (w : Walk) : Op (Option Walk) :=
  if verify (addressBytes w.addr) then .pure (some w) else .raise .checksumMismatch

/-- One search call: `none` is "no more devices" (rules R140 to R149). -/
def deviceSearch (p : Params) (alarm ssv : Bool) (addr disc : Word64) (ldi : BitVec 6) : Op (Option Walk) :=
  if ssv && disc == 0 then .pure none
  else (busReset p).bind fun present =>
    if present then
      (writeByte p (searchCommandByte p alarm)).bind fun _ =>
        (walkPositions p ssv addr disc ldi).bind checkWalk
    else .pure none

/-- What a search without an error writes: the Search State when an address was found, `STATUS` in any case
(rules R149, R151). -/
def commitSearch (found : Option Walk) (s : State) : State :=
  match found with
  | some w => (s.setSearchState w.addr w.disc w.ldi).setStatus (okStatus true)
  | none => s.setStatus (okStatus false)

/-- Command `SEARCH f` (rule R140). -/
def execSearch (f : Bool) (s : State) : Host.Outcome State Fault Refusal :=
  runCommand s (deviceSearch s.params f s.ssv s.addr s.disc s.ldi) commitSearch

end Sys2Proof.Machine
end

