-- ==== Sys2Proof/Machine/Dispatch.lean ====
section
/-!
DEFINITION. What each command does: one arm per row of the opcode table (rule R83).
-/
namespace Sys2Proof.Machine

def exec (i : Instr) (s : State) : Host.Outcome State Fault Refusal :=
  match i with
  -- family 0, bit transport
  | .reset => Sys2Proof.Machine.execReset s
  | .writeBit b => Sys2Proof.Machine.execWriteBit b s
  | .readBit => Sys2Proof.Machine.execReadBit s
  | .writeByte v => Sys2Proof.Machine.execWriteByte v s
  | .readByte => Sys2Proof.Machine.execReadByte s
  -- family 1, integrity check
  | .crcCompute n => Sys2Proof.Machine.execCrcCompute n s
  | .crcVerify n => Sys2Proof.Machine.execCrcVerify n s
  -- family 2, ROM addressing
  | .readAddress => Sys2Proof.Machine.execReadAddress s
  | .matchAddress => Sys2Proof.Machine.execMatchAddress s
  | .skipAddress => Sys2Proof.Machine.execSkipAddress s
  -- family 3, device search
  | .search f => Sys2Proof.Machine.execSearch f s

end Sys2Proof.Machine
end

