-- ==== Sys2Proof/Machine/Window.lean ====
section
/-!
DEFINITION. The register window as the host reads and writes it (rules R21, R28, R50, R63), and the block's reset input
(rules R34, R220, R222).
-/
namespace Sys2Proof.Machine

/-- Where an offset of the window sits in the host's address space (rule R50). `REG_BASE` is OPEN (rule R6, D2), so it is
an argument. -/
def windowAddress (regBase : Nat) (offset : BitVec 6) : Nat := regBase + offset.toNat

/-- The offset of the window that an address of the host's space reaches, if it reaches the window (rule R50). -/
def windowOffset (regBase address : Nat) : Option (BitVec 6) :=
  if regBase ≤ address ∧ address < regBase + 64 then some (BitVec.ofNat 6 (address - regBase)) else none

/-- A byte read of the window (rule R21): `CMD` and reserved offsets read 0, unused bits read 0. -/
def windowByte (s : State) (offset : BitVec 6) : Byte :=
  if offset.toNat = 0x02 then s.status
  else if offset.toNat = 0x03 then s.data
  else if offset.toNat = 0x04 then s.ldi.setWidth 8
  else if offset.toNat = 0x05 then (BitVec.ofBool s.ssv).setWidth 8
  else if 0x08 ≤ offset.toNat ∧ offset.toNat ≤ 0x0F then byteLane s.addr (offset.toNat - 0x08)
  else if 0x10 ≤ offset.toNat ∧ offset.toNat ≤ 0x17 then byteLane s.disc (offset.toNat - 0x10)
  else if 0x18 ≤ offset.toNat ∧ offset.toNat ≤ 0x20 then bufByte s (offset.toNat - 0x18)
  else 0

/-- `BUF[j] <- v`, nothing past the ninth byte (rules R21, R27). -/
def writeBufByte (s : State) (j : Nat) (v : Byte) : State := s.setBuf (s.buf.setIfInBounds j v)

/-- A byte write of the window (rules R21, R28): ignored at `CMD`, at read-only registers and at reserved offsets; unused
bits are not stored. -/
def writeWindowByte (s : State) (offset : BitVec 6) (v : Byte) : State :=
  if offset.toNat = 0x04 then s.setLdi (v.extractLsb' 0 6)
  else if offset.toNat = 0x05 then s.setSsv (v.getLsbD 0)
  else if 0x08 ≤ offset.toNat ∧ offset.toNat ≤ 0x0F then s.setAddr (setByteLane s.addr (offset.toNat - 0x08) v)
  else if 0x10 ≤ offset.toNat ∧ offset.toNat ≤ 0x17 then s.setDisc (setByteLane s.disc (offset.toNat - 0x10) v)
  else if 0x18 ≤ offset.toNat ∧ offset.toNat ≤ 0x20 then writeBufByte s (offset.toNat - 0x18) v
  else s

/-- A whole read of `ADDR` or `DISC` (rules R21, R63). -/
def wideValue (s : State) : WideRegister → Word64
  | .addr => s.addr
  | .disc => s.disc

/-- A whole write of `ADDR` or `DISC` (rules R21, R63). -/
def writeWide (s : State) (r : WideRegister) (v : Word64) : State :=
  match r with
  | .addr => s.setAddr v
  | .disc => s.setDisc v

/-- An access to the window that issues no command (rules R21, R28, R63); no channel event. -/
def accessWindow (a : WindowAccess) (s : State) : State :=
  match a with
  | .writeByte offset v => writeWindowByte s offset v
  | .writeWide r v => writeWide s r v
  | .readByte offset => s.pushRead ((windowByte s offset).setWidth 64)
  | .readWide r => s.pushRead (wideValue s r)
  | .readCommand => s.pushRead 0x0000

/-- The nine bytes a hardware reset leaves in `BUF`, the free draws from number `n` on (rule R34, U10). -/
def freeBuf (n : Nat) : Vector Byte 9 :=
  #v[Config.freeByte n, Config.freeByte (n + 1), Config.freeByte (n + 2), Config.freeByte (n + 3),
     Config.freeByte (n + 4), Config.freeByte (n + 5), Config.freeByte (n + 6), Config.freeByte (n + 7),
     Config.freeByte (n + 8)]

/-- Power-on or the reset input (rules R34, R220): the empty Search State, `STATUS = 0x00`, any byte in `DATA` and in each
`BUF[j]`. It makes no channel event and leaves the channel as it was (rule R222). -/
def hardwareReset (s : State) : State :=
  { s with
    status := 0x00
    ssv := false
    addr := 0
    disc := 0
    ldi := 0
    data := Config.freeByte s.freeBytes
    buf := freeBuf (s.freeBytes + 1)
    freeBytes := s.freeBytes + 10 }

end Sys2Proof.Machine
end

