-- ==== Sys2Proof/Machine/Inputs.lean ====
section
/-!
DEFINITION. What the block does with one input: a command word, another window access, a hardware reset
(rules R5, R28, R34, R90).
-/
namespace Sys2Proof.Machine

/-- The command of a decoded word, or the illegal-command outcome (rules R28, R90). -/
def issue (d : Except DecodeError Instr) (s : State) : Host.Outcome State Fault Refusal :=
  match d with
  | .ok i => exec i s
  | .error _ => .next (endIllegal s)

/-- One input carried out (rules R5, R28, R34). -/
def perform (a : Input) (s : State) : Host.Outcome State Fault Refusal :=
  match a with
  | .command w => issue (decode w) s
  | .window a => .next (accessWindow a s)
  | .hardwareReset => .next (hardwareReset s)

/-- The block with nothing to do holds its registers (rules R5, R209). -/
def idle (s : State) : Host.Outcome State Fault Refusal := .next s

/-- The next input, a 16-bit write to `CMD` (rule R28), placed before the others. -/
def placeCommand (s : State) (w : CommandWord) : State := s.setPending (.command w :: s.pending)

end Sys2Proof.Machine
end

