-- ==== Sys2Proof/Machine/Step.lean ====
section
/-!
DEFINITION. One step of the system (rules R5, R28, R30): the next thing the outside world does to the block, carried out
to its end. There is no program counter and no fetch: the command word is what the host writes to `CMD`.
-/
namespace Sys2Proof.Machine

/-- The oldest pending input is taken and carried out; with none, the block is idle (rules R5, R209). -/
def step (s : State) : Host.Outcome State Fault Refusal :=
  match s.pending with
  | [] => idle s
  | a :: rest => perform a (s.setPending rest)

/-- `s` with the command word of the opcode table's bits `w` as the host's very next access. -/
def State.withFetchWord (s : State) (nbits w : Nat) : State := placeCommand s (tableWord nbits w)

end Sys2Proof.Machine
end

