-- ==== Sys2Proof/Machine/HostSoftware.lean ====
section
/-!
DEFINITION. The host software the source documents, outside the block (rules R4, R94, R153, R170 to R178): command
sequences over `exec`, the temperature decode and the address text form. No step of the machine uses this file.
-/
namespace Sys2Proof.Machine

/-- How a host sequence ends: its result, the `CODE` of the command that ended it (rule R170), or a stop of the machine. -/
inductive HostResult (α : Type) where
  | ok (v : α) (s : State)
  | error (code : BitVec 4) (s : State)
  | fault (f : Fault)
  | refused (r : Refusal)

/-- One part of a host sequence and then another; an error status of any command ends the sequence (file 45, Notation). -/
def HostResult.bind {α β : Type} (r : HostResult α) (f : α → State → HostResult β) : HostResult β :=
  match r with
  | .ok v s => f v s
  | .error c s => .error c s
  | .fault f => .fault f
  | .refused r => .refused r

/-- Issue one command and look at `STATUS.CODE`. -/
def hostIssue (i : Instr) (s : State) : HostResult Unit :=
  match exec i s with
  | .next t => if statusCode t.status = codeOk then .ok () t else .error (statusCode t.status) t
  | .fault f => .fault f
  | .refused r => .refused r

/-- `ADDRESS target`: `SET ADDR` and `MATCH_ADDRESS`, or `SKIP_ADDRESS` (rules R94, R170). -/
def hostAddress (target : Option Word64) (s : State) : HostResult Unit :=
  match target with
  | some a => hostIssue .matchAddress (writeWide s .addr a)
  | none => hostIssue .skipAddress s

/-- `START_MEASUREMENT target` (rules R94, R171). It does not wait. -/
def startMeasurement (target : Option Word64) (s : State) : HostResult Unit :=
  (hostAddress target s).bind fun _ t => hostIssue (.writeByte t.params.cmdConvert) t

/-- `READ_BYTE`, then `GET DATA` (rule R172). -/
def hostReadByte (s : State) : HostResult Byte :=
  (hostIssue .readByte s).bind fun _ t => .ok t.data t

/-- `n` times `READ_BYTE`, the first byte first (rule R172). -/
def hostReadBytes : Nat → State → HostResult (List Byte)
  | 0, s => .ok [] s
  | n + 1, s => (hostReadByte s).bind fun v t => (hostReadBytes n t).bind fun l u => .ok (v :: l) u

/-- `SET BUF[j]` for the bytes of a list, the first at `j` (rules R93, R172). -/
def hostWriteBuf : Nat → List Byte → State → State
  | _, [], s => s
  | j, v :: l, s => hostWriteBuf (j + 1) l (writeBufByte s j v)

/-- The first two bytes of a scratchpad: the Raw Reading, LSB then MSB (rule R172). -/
def rawReading (l : List Byte) : Byte × Byte := (l.getD 0 0, l.getD 1 0)

/-- `READ_RAW target, verify` (rules R94, R172): 2 bytes unchecked, or 9 bytes and `CRC_VERIFY 9`, whose FLAG = 0 is the
`ChecksumMismatch` of the sequence. -/
def readRaw (target : Option Word64) (verifyChecksum : Bool) (s : State) : HostResult (Byte × Byte) :=
  (hostAddress target s).bind fun _ t =>
  (hostIssue (.writeByte t.params.cmdReadScratchpad) t).bind fun _ t =>
    if verifyChecksum then
      (hostReadBytes 9 t).bind fun l t =>
      (hostIssue (.crcVerify 9) (hostWriteBuf 0 l t)).bind fun _ t =>
        if statusFlag t.status then .ok (rawReading l) t else .error (codeOf .checksumMismatch) t
    else (hostReadBytes 2 t).bind fun l t => .ok (rawReading l) t

/-- `SEARCH_RESTART`: `SSV <- 0` (rules R94, R153). -/
def searchRestart (s : State) : State := s.setSsv false

/-- The 7-bit magnitude of a Raw Reading before the complement (rule R174). -/
def celsiusMagnitude (lsb msb : Byte) : Nat := ((lsb >>> 4) ||| ((msb &&& 0x07) <<< 4)).toNat

/-- The fractional contribution (rule R174). -/
def celsiusFraction (lsb : Byte) : Nat := (lsb &&& 0x0F).toNat * 6

/-- `decode_celsius`, exact, in thousandths of a degree (rule R174): the second scale is kept although it is never taken
(rule R175, C6). -/
def decodeCelsius (p : Params) (lsb msb : Byte) : Int :=
  let neg := p.negThreshold.ult msb
  let mag := if neg then 127 - celsiusMagnitude lsb msb else celsiusMagnitude lsb msb
  let f := if celsiusFraction lsb < 100 then celsiusFraction lsb * 10 else celsiusFraction lsb
  let t : Int := ((mag * 1000 + f : Nat) : Int)
  if neg then -t else t

/-- The Celsius value as a number format holds it (rule R174): the fraction is rounded, then the sum, and the sign is
applied last. -/
def decodeCelsiusIn (format : FloatFormat) (p : Params) (lsb msb : Byte) : format.Value :=
  let neg := p.negThreshold.ult msb
  let mag := if neg then 127 - celsiusMagnitude lsb msb else celsiusMagnitude lsb msb
  let frac := celsiusFraction lsb
  let f := format.ofRat (if frac < 100 then (frac : Rat) / 100 else (frac : Rat) / 1000)
  let t := format.ofRat ((mag : Rat) + format.toRat f)
  if neg then format.neg t else t

/-- The exact rationals of rule R174. -/
def exactFormat : FloatFormat where
  Value := Rat
  ofRat q := q
  toRat v := v
  neg v := -v
  toRat_neg _ := rfl

/-- The number a floating-point value stands for. -/
def signedToRat (v : SignedValue) : Rat := if v.negative then -v.magnitude else v.magnitude

/-- A floating-point format (rules R174, R175): a sign, and a magnitude that is rounded to one of the format's; the
negation flips the sign, also that of zero. -/
def floatingFormat (round : Rat → Rat) : FloatFormat where
  Value := SignedValue
  ofRat q := ⟨decide (q < 0), round (if q < 0 then -q else q)⟩
  toRat := signedToRat
  neg v := ⟨!v.negative, v.magnitude⟩
  toRat_neg v := by
    obtain ⟨negative, magnitude⟩ := v
    cases negative <;> simp [signedToRat]

/-- What rules R177 and R178 leave open of the text a formatter writes (D32). -/
structure TextStyle where
  /-- The first digit pair is byte 0, the family code; otherwise byte 7. -/
  familyFirst : Bool
  upperCase : Bool
  /-- A hyphen between the pairs; otherwise a colon. -/
  hyphen : Bool
  deriving DecidableEq, Repr

/-- Which letters a parser takes for digits (rule R177: "lower case, upper case or both"). -/
inductive LetterCase where
  | lower
  | upper
  | both
  deriving DecidableEq, Repr

/-- What parsing a text gives: an address, or a parse failure, of which the source names no kind (rule R177). -/
inductive ParsedText where
  | address (a : Word64)
  | failure
  deriving DecidableEq, Repr

/-- What rule R177 leaves open of a parser (D32). -/
structure TextReader where
  /-- The first digit pair is byte 0, the family code; otherwise byte 7. -/
  familyFirst : Bool
  letterCase : LetterCase
  /-- A text with both colons and hyphens is taken. -/
  mixedSeparators : Bool
  /-- What a text longer than 23 characters gives, and a text of 23 with a character that is no digit, or no separator,
  where one has to stand. -/
  otherwise : List Char → ParsedText

/-- A hexadecimal digit of either case (rule R177); which case a parser takes is `letterAllowed`. -/
def hexValue (c : Char) : Option (BitVec 4) :=
  if '0' ≤ c ∧ c ≤ '9' then some (BitVec.ofNat 4 (c.toNat - '0'.toNat))
  else if 'A' ≤ c ∧ c ≤ 'F' then some (BitVec.ofNat 4 (c.toNat - 'A'.toNat + 10))
  else if 'a' ≤ c ∧ c ≤ 'f' then some (BitVec.ofNat 4 (c.toNat - 'a'.toNat + 10))
  else none

/-- The digit of a value. -/
def hexDigit (upperCase : Bool) (v : BitVec 4) : Char :=
  if v.toNat < 10 then Char.ofNat ('0'.toNat + v.toNat)
  else if upperCase then Char.ofNat ('A'.toNat + (v.toNat - 10))
  else Char.ofNat ('a'.toNat + (v.toNat - 10))

/-- A character is no letter of the case a parser does not take (rule R177). -/
def letterAllowed : LetterCase → Char → Bool
  | .lower, c => !decide ('A' ≤ c ∧ c ≤ 'F')
  | .upper, c => !decide ('a' ≤ c ∧ c ≤ 'f')
  | .both, _ => true

/-- A text with colons and hyphens (rule R177). -/
def separatorsMixed (text : List Char) : Bool := text.contains ':' && text.contains '-'

/-- A parser takes the letters and the separators of a text made of digit pairs (rule R177). -/
def textAllowed (reader : TextReader) (text : List Char) : Bool :=
  text.all (letterAllowed reader.letterCase) && (reader.mixedSeparators || !separatorsMixed text)

/-- Digit pairs with one separator between each, colon or hyphen (rule R177). -/
def parsePairs : List Char → Option (List Byte)
  | [] => none
  | [_] => none
  | [h, l] =>
    match hexValue h, hexValue l with
    | some a, some b => some [a ++ b]
    | _, _ => none
  | h :: l :: sep :: rest =>
    match hexValue h, hexValue l, decide (sep = ':' ∨ sep = '-'), parsePairs rest with
    | some a, some b, true, some bytes => some ((a ++ b) :: bytes)
    | _, _, _, _ => none

/-- The address of eight bytes, the first as byte 0 (rule R61). -/
def addressOfBytes : Nat → List Byte → Word64
  | _, [] => 0
  | k, v :: l => setByteLane (addressOfBytes (k + 1) l) k v

/-- Parsing the address text form (rule R177); what the rule leaves open is the reader's. -/
def parseAddress (reader : TextReader) (text : List Char) : ParsedText :=
  if text.length < 23 then .failure
  else if 23 < text.length then reader.otherwise text
  else
    match parsePairs text with
    | none => reader.otherwise text
    | some bytes =>
      if textAllowed reader text then
        .address (addressOfBytes 0 (if reader.familyFirst then bytes else bytes.reverse))
      else .failure

/-- The two digits of a byte, the high one first (rule R177). -/
def formatByte (style : TextStyle) (v : Byte) : List Char :=
  [hexDigit style.upperCase (v.extractLsb' 4 4), hexDigit style.upperCase (v.extractLsb' 0 4)]

/-- Bytes with a separator between each pair. -/
def formatBytes (style : TextStyle) : List Byte → List Char
  | [] => []
  | [v] => formatByte style v
  | v :: l => formatByte style v ++ [if style.hyphen then '-' else ':'] ++ formatBytes style l

/-- Formatting a Device Address as 23 characters (rule R178). -/
def formatAddress (style : TextStyle) (a : Word64) : List Char :=
  formatBytes style (if style.familyFirst then addressBytes a else (addressBytes a).reverse)

end Sys2Proof.Machine
end

