-- ==== Sys2Proof/Safety.lean ====
section
/-!
DEFINITION. The terms in which claims are stated: the answers a channel gives ahead (rule R52), the shapes of a trace
(rules R10, R57, R105, R150), the invariants of the registers (rules R25, R39), and a bus of devices that answers as
rule R144 says (rules R154, R155).
-/
namespace Sys2Proof.Machine

/-- Every channel call returns: the premise of every termination claim (rule R72, D33). -/
abbrev everyCallReturns (s : State) : Prop := s.chan.hangAt = none

/-- The answer to the `k`-th `ChSend` from here on (rule R55). -/
def Channel.sendAhead (c : Channel) (k : Nat) : Bool := c.sendAnswer (c.sends + k)

/-- The answer to the `k`-th `ChRecv` from here on (rule R56). -/
def Channel.recvAhead (c : Channel) (k : Nat) : Option Byte := c.recvAnswer (c.recvs + k)

/-- The next `n` sends are answered `ok` (rule R55). -/
abbrev sendsSucceed (c : Channel) (n : Nat) : Prop := ∀ k < n, c.sendAhead k = true

/-- The next `n` receives are answered by the bytes `echo 0, echo 1, ...` (rule R56). -/
abbrev echoesAre (c : Channel) (n : Nat) (echo : Nat → Byte) : Prop := ∀ k < n, c.recvAhead k = some (echo k)

/-- The channel after so many sends and receives with these events. -/
def Channel.advance (c : Channel) (sends recvs : Nat) (events : List Event) : Channel :=
  { c with sends := c.sends + sends, recvs := c.recvs + recvs, log := events.reverse ++ c.log }

/-- The bit an echo stands for, as rule R102 words it. -/
abbrev echoBit (p : Params) (v : Byte) : Bool := decide (p.rdThreshold.toNat < v.toNat)

/-- A write slot: its rate, a flush, `WRITE1_BYTE` for a 1 and 0x00 for a 0 (rules R84, R101). -/
def writeSlot (p : Params) (b ok : Bool) : List Event :=
  [.rate .fast, .flush, .send (if b then p.write1Byte else 0x00) ok]

/-- A read slot with its echo (rules R84, R102). -/
def readSlot (echo : Option Byte) : List Event := [.rate .fast, .flush, .send 0xFF true, .recv echo]

/-- A bus reset with its echo (rules R84, R100). -/
def resetSlot (p : Params) (echo : Option Byte) : List Event :=
  [.rate .slow, .flush, .send p.resetPattern true, .recv echo]

/-- Write slots of the bits `bit 0, ..., bit (n-1)` (rule R59). -/
def writeSlots (p : Params) (n : Nat) (bit : Nat → Bool) : List Event :=
  (List.range n).flatMap fun i => writeSlot p (bit i) true

/-- Read slots with the echoes `echo 0, ..., echo (n-1)` (rule R59). -/
def readSlots (n : Nat) (echo : Nat → Byte) : List Event := (List.range n).flatMap fun i => readSlot (some (echo i))

/-- Two read slots and a write slot for each of `n` positions (rules R144, R150). -/
def walkSlots (p : Params) (n : Nat) (echo : Nat → Byte) (bit : Nat → Bool) : List Event :=
  (List.range n).flatMap fun i =>
    readSlot (some (echo (2 * i))) ++ readSlot (some (echo (2 * i + 1))) ++ writeSlot p (bit i) true

/-- A read slot whose send failed: no receive (rules R102, R106). -/
def readSlotCut : List Event := [.rate .fast, .flush, .send 0xFF false]

/-- A reset, a write slot or a read slot, whole or ended by its failed send (rules R57, R100 to R102, R105). -/
def legalSlot (p : Params) : List Event → Bool
  | [.rate .slow, .flush, .send b false] => b == p.resetPattern
  | [.rate .slow, .flush, .send b true, .recv _] => b == p.resetPattern
  | [.rate .fast, .flush, .send b ok] => b == p.write1Byte || b == 0x00 || (b == 0xFF && !ok)
  | [.rate .fast, .flush, .send b true, .recv _] => b == 0xFF
  | _ => false

/-- A channel call that did not complete (rule R191). -/
def failedEvent : Event → Bool
  | .send _ ok => !ok
  | .recv v => v.isNone
  | .rate _ => false
  | .flush => false

/-- The answers to the sends among these events, in order (rule R55). -/
def sendAnswers (events : List Event) : List Bool :=
  events.filterMap fun e => match e with | .send _ ok => some ok | .recv _ => none | .rate _ => none | .flush => none

/-- The answers to the receives among these events, in order (rule R56). -/
def recvAnswers (events : List Event) : List (Option Byte) :=
  events.filterMap fun e => match e with | .recv v => some v | .send _ _ => none | .rate _ => none | .flush => none

/-- The same state with a channel of which every call returns (rule R72, D33). -/
def State.withoutHang (s : State) : State := s.setChan { s.chan with hangAt := none }

/-- The most channel events a command makes (rule R72). -/
def eventBound : Instr → Nat
  | .reset => 4
  | .writeBit _ => 3
  | .readBit => 4
  | .writeByte _ => 24
  | .readByte => 32
  | .crcCompute _ => 0
  | .crcVerify _ => 0
  | .readAddress => 284
  | .matchAddress => 220
  | .skipAddress => 28
  | .search _ => 732

/-- The codes a legal command can end with (rule R202). -/
def possibleCodes : Instr → List (BitVec 4)
  | .reset => [0x0, 0x1]
  | .writeBit _ => [0x0, 0x1]
  | .readBit => [0x0, 0x1]
  | .writeByte _ => [0x0, 0x1]
  | .readByte => [0x0, 0x1]
  | .crcCompute _ => [0x0]
  | .crcVerify _ => [0x0]
  | .readAddress => [0x0, 0x1, 0x2]
  | .matchAddress => [0x0, 0x1, 0x2]
  | .skipAddress => [0x0, 0x1, 0x2]
  | .search _ => [0x0, 0x1, 0x3, 0x4]

/-- The five capabilities of the channel contract (rule R51), the flushes one by one. -/
inductive PrimitiveCall where
  | selectRate (r : Rate)
  | flushInput
  | flushOutput
  | sendByte (b : Byte)
  | receiveByte
  deriving DecidableEq, Repr

/-- The primitive calls behind an event, for either order of the composite flush (rule R54, D13). -/
def primitiveCalls (o : FlushOrder) : Event → List PrimitiveCall
  | .rate r => [.selectRate r]
  | .flush =>
    match o with
    | .inThenOut => [.flushInput, .flushOutput]
    | .outThenIn => [.flushOutput, .flushInput]
  | .send b _ => [.sendByte b]
  | .recv _ => [.receiveByte]

/-- The rate the channel is left at, if the trace selected one (rules R33, R236). -/
def lastRate (trace : List Event) : Option Rate :=
  trace.foldl (fun r e => match e with | .rate r' => some r' | .flush => r | .send _ _ => r | .recv _ => r) none

/-- `STATUS` holds a code that is produced, FLAG only with `OK`, and 0 in bits 7:5 (rules R25, R32, R196). -/
abbrev statusLegal (s : State) : Prop :=
  s.status.extractLsb' 5 3 = 0 ∧
  statusCode s.status ∈ [(0x0 : BitVec 4), 0x1, 0x2, 0x3, 0x4, 0xF] ∧
  (statusFlag s.status = true → statusCode s.status = 0x0)

/-- What rule R39 says of a Search State that is present. -/
abbrev searchStateSound (s : State) : Prop :=
  s.ssv = true →
    (∀ i < 64, s.disc.getLsbD i = true → s.addr.getLsbD i = false) ∧
    (s.disc ≠ 0 → s.disc.getLsbD s.ldi.toNat = true ∧ ∀ i < 64, s.ldi.toNat < i → s.disc.getLsbD i = false) ∧
    (s.disc = 0 → s.ldi = 0) ∧
    verify (addressBytes s.addr) = true

/-- The highest marked position below `n`, and 0 when there is none (rules R145, R147, D17). -/
def lastMarked (mark : Nat → Bool) : Nat → Nat
  | 0 => 0
  | n + 1 => if mark n then n else lastMarked mark n

/-- The key of rule R155: the address with its 64 bits reversed, `a[i]` at bit 63-i. -/
def rev64 (a : Word64) : Nat := (List.range 64).foldl (fun n i => 2 * n + (a.getLsbD i).toNat) 0

/-- `d` has the bits of `a` below position `i`. -/
def agreesBelow (a : Word64) (i : Nat) (d : Word64) : Bool :=
  (List.range i).all fun j => d.getLsbD j == a.getLsbD j

/-- What a wired-AND bus of the devices `ds` answers in the two read slots of position `i`, when the path walked so far
is that of `a` (rule R144): the AND of the bits, the AND of their complements. -/
def lineBits (ds : List Word64) (a : Word64) (i : Nat) : Bool × Bool :=
  ((ds.filter (agreesBelow a i)).all fun d => d.getLsbD i, (ds.filter (agreesBelow a i)).all fun d => !d.getLsbD i)

/-- In the next search every call completes, a device is present, and along the path to `a` every slot answers as the
bus of the devices `ds` does (the premises of rule R154). -/
abbrev busAnswers (s : State) (ds : List Word64) (a : Word64) : Prop :=
  sendsSucceed s.chan 201 ∧
  (s.chan.recvAhead 0).map (· != s.params.resetPattern) = some true ∧
  ∀ i < 64,
    (s.chan.recvAhead (2 * i + 1)).map (echoBit s.params) = some (lineBits ds a i).1 ∧
    (s.chan.recvAhead (2 * i + 2)).map (echoBit s.params) = some (lineBits ds a i).2

/-- Position `i` on the path to `a` has an unexplored 1-branch that holds a device (rules R23, R157). -/
def unexploredAt (ds : List Word64) (a : Word64) (i : Nat) : Bool :=
  !a.getLsbD i && ds.any fun d => agreesBelow a i d && d.getLsbD i

/-- The Search State right after the device `a` of the bus `ds` was found (rules R23, R29, R157). -/
abbrev searchStateAfter (ds : List Word64) (a : Word64) (s : State) : Prop :=
  s.ssv = true ∧ s.addr = a ∧
  (∀ i < 64, s.disc.getLsbD i = unexploredAt ds a i) ∧
  s.ldi.toNat = lastMarked (unexploredAt ds a) 64

end Sys2Proof.Machine
end

