-- ==== Sys2Proof/Laws/State.lean ====
section
/-!
SUPPORT. One lemma per field per register write: what a write leaves in each field.
-/
namespace Sys2Proof.Machine

@[simp] theorem State.setStatus_status (s : State) (v : Byte) : (s.setStatus v).status = v := rfl
@[simp] theorem State.setStatus_data (s : State) (v : Byte) : (s.setStatus v).data = s.data := rfl
@[simp] theorem State.setStatus_ldi (s : State) (v : Byte) : (s.setStatus v).ldi = s.ldi := rfl
@[simp] theorem State.setStatus_ssv (s : State) (v : Byte) : (s.setStatus v).ssv = s.ssv := rfl
@[simp] theorem State.setStatus_addr (s : State) (v : Byte) : (s.setStatus v).addr = s.addr := rfl
@[simp] theorem State.setStatus_disc (s : State) (v : Byte) : (s.setStatus v).disc = s.disc := rfl
@[simp] theorem State.setStatus_buf (s : State) (v : Byte) : (s.setStatus v).buf = s.buf := rfl
@[simp] theorem State.setStatus_chan (s : State) (v : Byte) : (s.setStatus v).chan = s.chan := rfl
@[simp] theorem State.setStatus_params (s : State) (v : Byte) : (s.setStatus v).params = s.params := rfl
@[simp] theorem State.setStatus_pending (s : State) (v : Byte) : (s.setStatus v).pending = s.pending := rfl
@[simp] theorem State.setStatus_reads (s : State) (v : Byte) : (s.setStatus v).reads = s.reads := rfl
@[simp] theorem State.setStatus_freeBytes (s : State) (v : Byte) : (s.setStatus v).freeBytes = s.freeBytes := rfl

@[simp] theorem State.setData_status (s : State) (v : Byte) : (s.setData v).status = s.status := rfl
@[simp] theorem State.setData_data (s : State) (v : Byte) : (s.setData v).data = v := rfl
@[simp] theorem State.setData_ldi (s : State) (v : Byte) : (s.setData v).ldi = s.ldi := rfl
@[simp] theorem State.setData_ssv (s : State) (v : Byte) : (s.setData v).ssv = s.ssv := rfl
@[simp] theorem State.setData_addr (s : State) (v : Byte) : (s.setData v).addr = s.addr := rfl
@[simp] theorem State.setData_disc (s : State) (v : Byte) : (s.setData v).disc = s.disc := rfl
@[simp] theorem State.setData_buf (s : State) (v : Byte) : (s.setData v).buf = s.buf := rfl
@[simp] theorem State.setData_chan (s : State) (v : Byte) : (s.setData v).chan = s.chan := rfl
@[simp] theorem State.setData_params (s : State) (v : Byte) : (s.setData v).params = s.params := rfl
@[simp] theorem State.setData_pending (s : State) (v : Byte) : (s.setData v).pending = s.pending := rfl
@[simp] theorem State.setData_reads (s : State) (v : Byte) : (s.setData v).reads = s.reads := rfl
@[simp] theorem State.setData_freeBytes (s : State) (v : Byte) : (s.setData v).freeBytes = s.freeBytes := rfl

@[simp] theorem State.setLdi_status (s : State) (v : BitVec 6) : (s.setLdi v).status = s.status := rfl
@[simp] theorem State.setLdi_data (s : State) (v : BitVec 6) : (s.setLdi v).data = s.data := rfl
@[simp] theorem State.setLdi_ldi (s : State) (v : BitVec 6) : (s.setLdi v).ldi = v := rfl
@[simp] theorem State.setLdi_ssv (s : State) (v : BitVec 6) : (s.setLdi v).ssv = s.ssv := rfl
@[simp] theorem State.setLdi_addr (s : State) (v : BitVec 6) : (s.setLdi v).addr = s.addr := rfl
@[simp] theorem State.setLdi_disc (s : State) (v : BitVec 6) : (s.setLdi v).disc = s.disc := rfl
@[simp] theorem State.setLdi_buf (s : State) (v : BitVec 6) : (s.setLdi v).buf = s.buf := rfl
@[simp] theorem State.setLdi_chan (s : State) (v : BitVec 6) : (s.setLdi v).chan = s.chan := rfl
@[simp] theorem State.setLdi_params (s : State) (v : BitVec 6) : (s.setLdi v).params = s.params := rfl
@[simp] theorem State.setLdi_pending (s : State) (v : BitVec 6) : (s.setLdi v).pending = s.pending := rfl
@[simp] theorem State.setLdi_reads (s : State) (v : BitVec 6) : (s.setLdi v).reads = s.reads := rfl
@[simp] theorem State.setLdi_freeBytes (s : State) (v : BitVec 6) : (s.setLdi v).freeBytes = s.freeBytes := rfl

@[simp] theorem State.setSsv_status (s : State) (v : Bool) : (s.setSsv v).status = s.status := rfl
@[simp] theorem State.setSsv_data (s : State) (v : Bool) : (s.setSsv v).data = s.data := rfl
@[simp] theorem State.setSsv_ldi (s : State) (v : Bool) : (s.setSsv v).ldi = s.ldi := rfl
@[simp] theorem State.setSsv_ssv (s : State) (v : Bool) : (s.setSsv v).ssv = v := rfl
@[simp] theorem State.setSsv_addr (s : State) (v : Bool) : (s.setSsv v).addr = s.addr := rfl
@[simp] theorem State.setSsv_disc (s : State) (v : Bool) : (s.setSsv v).disc = s.disc := rfl
@[simp] theorem State.setSsv_buf (s : State) (v : Bool) : (s.setSsv v).buf = s.buf := rfl
@[simp] theorem State.setSsv_chan (s : State) (v : Bool) : (s.setSsv v).chan = s.chan := rfl
@[simp] theorem State.setSsv_params (s : State) (v : Bool) : (s.setSsv v).params = s.params := rfl
@[simp] theorem State.setSsv_pending (s : State) (v : Bool) : (s.setSsv v).pending = s.pending := rfl
@[simp] theorem State.setSsv_reads (s : State) (v : Bool) : (s.setSsv v).reads = s.reads := rfl
@[simp] theorem State.setSsv_freeBytes (s : State) (v : Bool) : (s.setSsv v).freeBytes = s.freeBytes := rfl

@[simp] theorem State.setAddr_status (s : State) (v : Word64) : (s.setAddr v).status = s.status := rfl
@[simp] theorem State.setAddr_data (s : State) (v : Word64) : (s.setAddr v).data = s.data := rfl
@[simp] theorem State.setAddr_ldi (s : State) (v : Word64) : (s.setAddr v).ldi = s.ldi := rfl
@[simp] theorem State.setAddr_ssv (s : State) (v : Word64) : (s.setAddr v).ssv = s.ssv := rfl
@[simp] theorem State.setAddr_addr (s : State) (v : Word64) : (s.setAddr v).addr = v := rfl
@[simp] theorem State.setAddr_disc (s : State) (v : Word64) : (s.setAddr v).disc = s.disc := rfl
@[simp] theorem State.setAddr_buf (s : State) (v : Word64) : (s.setAddr v).buf = s.buf := rfl
@[simp] theorem State.setAddr_chan (s : State) (v : Word64) : (s.setAddr v).chan = s.chan := rfl
@[simp] theorem State.setAddr_params (s : State) (v : Word64) : (s.setAddr v).params = s.params := rfl
@[simp] theorem State.setAddr_pending (s : State) (v : Word64) : (s.setAddr v).pending = s.pending := rfl
@[simp] theorem State.setAddr_reads (s : State) (v : Word64) : (s.setAddr v).reads = s.reads := rfl
@[simp] theorem State.setAddr_freeBytes (s : State) (v : Word64) : (s.setAddr v).freeBytes = s.freeBytes := rfl

@[simp] theorem State.setDisc_status (s : State) (v : Word64) : (s.setDisc v).status = s.status := rfl
@[simp] theorem State.setDisc_data (s : State) (v : Word64) : (s.setDisc v).data = s.data := rfl
@[simp] theorem State.setDisc_ldi (s : State) (v : Word64) : (s.setDisc v).ldi = s.ldi := rfl
@[simp] theorem State.setDisc_ssv (s : State) (v : Word64) : (s.setDisc v).ssv = s.ssv := rfl
@[simp] theorem State.setDisc_addr (s : State) (v : Word64) : (s.setDisc v).addr = s.addr := rfl
@[simp] theorem State.setDisc_disc (s : State) (v : Word64) : (s.setDisc v).disc = v := rfl
@[simp] theorem State.setDisc_buf (s : State) (v : Word64) : (s.setDisc v).buf = s.buf := rfl
@[simp] theorem State.setDisc_chan (s : State) (v : Word64) : (s.setDisc v).chan = s.chan := rfl
@[simp] theorem State.setDisc_params (s : State) (v : Word64) : (s.setDisc v).params = s.params := rfl
@[simp] theorem State.setDisc_pending (s : State) (v : Word64) : (s.setDisc v).pending = s.pending := rfl
@[simp] theorem State.setDisc_reads (s : State) (v : Word64) : (s.setDisc v).reads = s.reads := rfl
@[simp] theorem State.setDisc_freeBytes (s : State) (v : Word64) : (s.setDisc v).freeBytes = s.freeBytes := rfl

@[simp] theorem State.setBuf_status (s : State) (v : Vector Byte 9) : (s.setBuf v).status = s.status := rfl
@[simp] theorem State.setBuf_data (s : State) (v : Vector Byte 9) : (s.setBuf v).data = s.data := rfl
@[simp] theorem State.setBuf_ldi (s : State) (v : Vector Byte 9) : (s.setBuf v).ldi = s.ldi := rfl
@[simp] theorem State.setBuf_ssv (s : State) (v : Vector Byte 9) : (s.setBuf v).ssv = s.ssv := rfl
@[simp] theorem State.setBuf_addr (s : State) (v : Vector Byte 9) : (s.setBuf v).addr = s.addr := rfl
@[simp] theorem State.setBuf_disc (s : State) (v : Vector Byte 9) : (s.setBuf v).disc = s.disc := rfl
@[simp] theorem State.setBuf_buf (s : State) (v : Vector Byte 9) : (s.setBuf v).buf = v := rfl
@[simp] theorem State.setBuf_chan (s : State) (v : Vector Byte 9) : (s.setBuf v).chan = s.chan := rfl
@[simp] theorem State.setBuf_params (s : State) (v : Vector Byte 9) : (s.setBuf v).params = s.params := rfl
@[simp] theorem State.setBuf_pending (s : State) (v : Vector Byte 9) : (s.setBuf v).pending = s.pending := rfl
@[simp] theorem State.setBuf_reads (s : State) (v : Vector Byte 9) : (s.setBuf v).reads = s.reads := rfl
@[simp] theorem State.setBuf_freeBytes (s : State) (v : Vector Byte 9) : (s.setBuf v).freeBytes = s.freeBytes := rfl

@[simp] theorem State.setChan_status (s : State) (c : Channel) : (s.setChan c).status = s.status := rfl
@[simp] theorem State.setChan_data (s : State) (c : Channel) : (s.setChan c).data = s.data := rfl
@[simp] theorem State.setChan_ldi (s : State) (c : Channel) : (s.setChan c).ldi = s.ldi := rfl
@[simp] theorem State.setChan_ssv (s : State) (c : Channel) : (s.setChan c).ssv = s.ssv := rfl
@[simp] theorem State.setChan_addr (s : State) (c : Channel) : (s.setChan c).addr = s.addr := rfl
@[simp] theorem State.setChan_disc (s : State) (c : Channel) : (s.setChan c).disc = s.disc := rfl
@[simp] theorem State.setChan_buf (s : State) (c : Channel) : (s.setChan c).buf = s.buf := rfl
@[simp] theorem State.setChan_chan (s : State) (c : Channel) : (s.setChan c).chan = c := rfl
@[simp] theorem State.setChan_params (s : State) (c : Channel) : (s.setChan c).params = s.params := rfl
@[simp] theorem State.setChan_pending (s : State) (c : Channel) : (s.setChan c).pending = s.pending := rfl
@[simp] theorem State.setChan_reads (s : State) (c : Channel) : (s.setChan c).reads = s.reads := rfl
@[simp] theorem State.setChan_freeBytes (s : State) (c : Channel) : (s.setChan c).freeBytes = s.freeBytes := rfl

@[simp] theorem State.setPending_status (s : State) (l : List Input) : (s.setPending l).status = s.status := rfl
@[simp] theorem State.setPending_data (s : State) (l : List Input) : (s.setPending l).data = s.data := rfl
@[simp] theorem State.setPending_ldi (s : State) (l : List Input) : (s.setPending l).ldi = s.ldi := rfl
@[simp] theorem State.setPending_ssv (s : State) (l : List Input) : (s.setPending l).ssv = s.ssv := rfl
@[simp] theorem State.setPending_addr (s : State) (l : List Input) : (s.setPending l).addr = s.addr := rfl
@[simp] theorem State.setPending_disc (s : State) (l : List Input) : (s.setPending l).disc = s.disc := rfl
@[simp] theorem State.setPending_buf (s : State) (l : List Input) : (s.setPending l).buf = s.buf := rfl
@[simp] theorem State.setPending_chan (s : State) (l : List Input) : (s.setPending l).chan = s.chan := rfl
@[simp] theorem State.setPending_params (s : State) (l : List Input) : (s.setPending l).params = s.params := rfl
@[simp] theorem State.setPending_pending (s : State) (l : List Input) : (s.setPending l).pending = l := rfl
@[simp] theorem State.setPending_reads (s : State) (l : List Input) : (s.setPending l).reads = s.reads := rfl
@[simp] theorem State.setPending_freeBytes (s : State) (l : List Input) : (s.setPending l).freeBytes = s.freeBytes := rfl

@[simp] theorem State.pushRead_status (s : State) (v : Word64) : (s.pushRead v).status = s.status := rfl
@[simp] theorem State.pushRead_data (s : State) (v : Word64) : (s.pushRead v).data = s.data := rfl
@[simp] theorem State.pushRead_ldi (s : State) (v : Word64) : (s.pushRead v).ldi = s.ldi := rfl
@[simp] theorem State.pushRead_ssv (s : State) (v : Word64) : (s.pushRead v).ssv = s.ssv := rfl
@[simp] theorem State.pushRead_addr (s : State) (v : Word64) : (s.pushRead v).addr = s.addr := rfl
@[simp] theorem State.pushRead_disc (s : State) (v : Word64) : (s.pushRead v).disc = s.disc := rfl
@[simp] theorem State.pushRead_buf (s : State) (v : Word64) : (s.pushRead v).buf = s.buf := rfl
@[simp] theorem State.pushRead_chan (s : State) (v : Word64) : (s.pushRead v).chan = s.chan := rfl
@[simp] theorem State.pushRead_params (s : State) (v : Word64) : (s.pushRead v).params = s.params := rfl
@[simp] theorem State.pushRead_pending (s : State) (v : Word64) : (s.pushRead v).pending = s.pending := rfl
@[simp] theorem State.pushRead_reads (s : State) (v : Word64) : (s.pushRead v).reads = s.reads ++ [v] := rfl
@[simp] theorem State.pushRead_freeBytes (s : State) (v : Word64) : (s.pushRead v).freeBytes = s.freeBytes := rfl

@[simp] theorem State.setSearchState_status (s : State) (a d : Word64) (l : BitVec 6) : (s.setSearchState a d l).status = s.status := rfl
@[simp] theorem State.setSearchState_data (s : State) (a d : Word64) (l : BitVec 6) : (s.setSearchState a d l).data = s.data := rfl
@[simp] theorem State.setSearchState_ldi (s : State) (a d : Word64) (l : BitVec 6) : (s.setSearchState a d l).ldi = l := rfl
@[simp] theorem State.setSearchState_ssv (s : State) (a d : Word64) (l : BitVec 6) : (s.setSearchState a d l).ssv = true := rfl
@[simp] theorem State.setSearchState_addr (s : State) (a d : Word64) (l : BitVec 6) : (s.setSearchState a d l).addr = a := rfl
@[simp] theorem State.setSearchState_disc (s : State) (a d : Word64) (l : BitVec 6) : (s.setSearchState a d l).disc = d := rfl
@[simp] theorem State.setSearchState_buf (s : State) (a d : Word64) (l : BitVec 6) : (s.setSearchState a d l).buf = s.buf := rfl
@[simp] theorem State.setSearchState_chan (s : State) (a d : Word64) (l : BitVec 6) : (s.setSearchState a d l).chan = s.chan := rfl
@[simp] theorem State.setSearchState_params (s : State) (a d : Word64) (l : BitVec 6) : (s.setSearchState a d l).params = s.params := rfl
@[simp] theorem State.setSearchState_pending (s : State) (a d : Word64) (l : BitVec 6) : (s.setSearchState a d l).pending = s.pending := rfl
@[simp] theorem State.setSearchState_reads (s : State) (a d : Word64) (l : BitVec 6) : (s.setSearchState a d l).reads = s.reads := rfl
@[simp] theorem State.setSearchState_freeBytes (s : State) (a d : Word64) (l : BitVec 6) : (s.setSearchState a d l).freeBytes = s.freeBytes := rfl

@[simp] theorem endWithError_status (k : ErrorKind) (s : State) : (endWithError k s).status = errorStatus k := rfl
@[simp] theorem endWithError_data (k : ErrorKind) (s : State) : (endWithError k s).data = s.data := rfl
@[simp] theorem endWithError_ldi (k : ErrorKind) (s : State) : (endWithError k s).ldi = s.ldi := rfl
@[simp] theorem endWithError_ssv (k : ErrorKind) (s : State) : (endWithError k s).ssv = s.ssv := rfl
@[simp] theorem endWithError_addr (k : ErrorKind) (s : State) : (endWithError k s).addr = s.addr := rfl
@[simp] theorem endWithError_disc (k : ErrorKind) (s : State) : (endWithError k s).disc = s.disc := rfl
@[simp] theorem endWithError_buf (k : ErrorKind) (s : State) : (endWithError k s).buf = s.buf := rfl
@[simp] theorem endWithError_chan (k : ErrorKind) (s : State) : (endWithError k s).chan = s.chan := rfl
@[simp] theorem endWithError_params (k : ErrorKind) (s : State) : (endWithError k s).params = s.params := rfl
@[simp] theorem endWithError_pending (k : ErrorKind) (s : State) : (endWithError k s).pending = s.pending := rfl
@[simp] theorem endWithError_reads (k : ErrorKind) (s : State) : (endWithError k s).reads = s.reads := rfl
@[simp] theorem endWithError_freeBytes (k : ErrorKind) (s : State) : (endWithError k s).freeBytes = s.freeBytes := rfl

@[simp] theorem endIllegal_status (s : State) : (endIllegal s).status = illegalStatus := rfl
@[simp] theorem endIllegal_data (s : State) : (endIllegal s).data = s.data := rfl
@[simp] theorem endIllegal_ldi (s : State) : (endIllegal s).ldi = s.ldi := rfl
@[simp] theorem endIllegal_ssv (s : State) : (endIllegal s).ssv = s.ssv := rfl
@[simp] theorem endIllegal_addr (s : State) : (endIllegal s).addr = s.addr := rfl
@[simp] theorem endIllegal_disc (s : State) : (endIllegal s).disc = s.disc := rfl
@[simp] theorem endIllegal_buf (s : State) : (endIllegal s).buf = s.buf := rfl
@[simp] theorem endIllegal_chan (s : State) : (endIllegal s).chan = s.chan := rfl
@[simp] theorem endIllegal_params (s : State) : (endIllegal s).params = s.params := rfl
@[simp] theorem endIllegal_pending (s : State) : (endIllegal s).pending = s.pending := rfl
@[simp] theorem endIllegal_reads (s : State) : (endIllegal s).reads = s.reads := rfl
@[simp] theorem endIllegal_freeBytes (s : State) : (endIllegal s).freeBytes = s.freeBytes := rfl

@[simp] theorem Channel.advance_sendScript (c : Channel) (n m : Nat) (es : List Event) : (c.advance n m es).sendScript = c.sendScript := rfl
@[simp] theorem Channel.advance_recvScript (c : Channel) (n m : Nat) (es : List Event) : (c.advance n m es).recvScript = c.recvScript := rfl
@[simp] theorem Channel.advance_hangAt (c : Channel) (n m : Nat) (es : List Event) : (c.advance n m es).hangAt = c.hangAt := rfl
@[simp] theorem Channel.advance_sends (c : Channel) (n m : Nat) (es : List Event) : (c.advance n m es).sends = c.sends + n := rfl
@[simp] theorem Channel.advance_recvs (c : Channel) (n m : Nat) (es : List Event) : (c.advance n m es).recvs = c.recvs + m := rfl
@[simp] theorem Channel.advance_log (c : Channel) (n m : Nat) (es : List Event) : (c.advance n m es).log = es.reverse ++ c.log := rfl
@[simp] theorem Channel.advance_trace (c : Channel) (n m : Nat) (es : List Event) : (c.advance n m es).trace = c.trace ++ es := by simp [Channel.trace]

end Sys2Proof.Machine
end

