-- ==== Sys2Proof/Laws/Ops.lean ====
section
/-!
SUPPORT. What the shared operations do, said once: bits and byte lanes, sequencing, the three kinds of slot, the loop, and
how a command ends.
-/
namespace Sys2Proof.Machine

/-! Bits and byte lanes. -/

theorem getLsbD_setBit {w : Nat} (v : BitVec w) (i j : Nat) (b : Bool) :
    (setBit v i b).getLsbD j = if j = i ∧ j < w then b else v.getLsbD j := by
  unfold setBit
  by_cases h : j < w
  · by_cases hji : j = i
    · subst hji
      cases b <;> simp [h]
    · have : ¬ (i ≤ j ∧ j - i = 0) := by omega
      cases b <;> simp [h, hji] <;> intros <;> omega
  · cases b <;> simp [h, BitVec.getLsbD_of_ge _ _ (Nat.le_of_not_lt h)]

theorem getLsbD_byteLane (a : Word64) (k i : Nat) :
    (byteLane a k).getLsbD i = (decide (i < 8) && a.getLsbD (8 * k + i)) := by
  simp [byteLane, BitVec.getLsbD_extractLsb']

theorem getLsbD_setByteLane (a : Word64) (k : Nat) (v : Byte) (i : Nat) (h : i < 64) :
    (setByteLane a k v).getLsbD i =
      if 8 * k ≤ i ∧ i < 8 * k + 8 then v.getLsbD (i - 8 * k) else a.getLsbD i := by
  have hFF : ∀ n : Nat, (0xFF#64).getLsbD n = decide (n < 8) := by
    intro n
    by_cases hn : n < 64
    · have : ∀ m : Fin 64, (0xFF#64).getLsbD m.val = decide (m.val < 8) := by decide
      exact this ⟨n, hn⟩
    · rw [BitVec.getLsbD_of_ge _ _ (by omega)]
      simp
      omega
  unfold setByteLane
  by_cases h1 : 8 * k ≤ i
  · by_cases h2 : i < 8 * k + 8
    · have h3 : i - 8 * k < 8 := by omega
      simp [h, h1, h2, h3, hFF, Nat.not_lt.mpr h1]
    · have h3 : ¬ i - 8 * k < 8 := by omega
      have e1 : (0xFF#64)[i - 8 * k]'(by omega) = false :=
        (BitVec.getLsbD_eq_getElem _).symm.trans ((hFF _).trans (decide_eq_false h3))
      have e2 : v.getLsbD (i - 8 * k) = false := BitVec.getLsbD_of_ge _ _ (by omega)
      simp [h, h1, h2, Nat.not_lt.mpr h1, e1, e2]
  · simp [h, h1, Nat.not_le.mp h1]

/-! The answers ahead move with the counters and with nothing else. -/

@[simp] theorem Channel.advance_sendAnswer (c : Channel) (n m : Nat) (es : List Event) (k : Nat) :
    (c.advance n m es).sendAnswer k = c.sendAnswer k := rfl

@[simp] theorem Channel.advance_recvAnswer (c : Channel) (n m : Nat) (es : List Event) (k : Nat) :
    (c.advance n m es).recvAnswer k = c.recvAnswer k := rfl

@[simp] theorem Channel.advance_sendAhead (c : Channel) (n m : Nat) (es : List Event) (k : Nat) :
    (c.advance n m es).sendAhead k = c.sendAhead (n + k) := by
  simp [Channel.sendAhead, Nat.add_assoc]

@[simp] theorem Channel.advance_recvAhead (c : Channel) (n m : Nat) (es : List Event) (k : Nat) :
    (c.advance n m es).recvAhead k = c.recvAhead (m + k) := by
  simp [Channel.recvAhead, Nat.add_assoc]

@[simp] theorem Channel.advance_advance (c : Channel) (n m n' m' : Nat) (es es' : List Event) :
    (c.advance n m es).advance n' m' es' = c.advance (n + n') (m + m') (es ++ es') := by
  simp [Channel.advance, Nat.add_assoc]

@[simp] theorem Channel.advance_zero (c : Channel) : c.advance 0 0 [] = c := by
  simp [Channel.advance]

/-! The window in the host's address space. -/

/-- The window takes 64 addresses from its base on, one for each offset (rule R50). -/
@[simp] theorem windowOffset_windowAddress (regBase : Nat) (offset : BitVec 6) :
    windowOffset regBase (windowAddress regBase offset) = some offset := by
  have := offset.isLt
  simp [windowOffset, windowAddress]
  omega

theorem windowOffset_eq_some {regBase address : Nat} {offset : BitVec 6}
    (h : windowOffset regBase address = some offset) : windowAddress regBase offset = address := by
  unfold windowOffset at h
  split at h
  · cases h
    simp [windowAddress, BitVec.toNat_ofNat]
    omega
  · cases h

/-! A command from a state without a hang. -/

@[simp] theorem State.withoutHang_chan (s : State) : s.withoutHang.chan = { s.chan with hangAt := none } := rfl

@[simp] theorem State.withoutHang_params (s : State) : s.withoutHang.params = s.params := rfl

theorem State.withoutHang_returns (s : State) : everyCallReturns s.withoutHang := rfl

/-! Answers counted. -/

@[simp] theorem sendAnswers_append (a b : List Event) : sendAnswers (a ++ b) = sendAnswers a ++ sendAnswers b := by
  simp [sendAnswers]

@[simp] theorem recvAnswers_append (a b : List Event) : recvAnswers (a ++ b) = recvAnswers a ++ recvAnswers b := by
  simp [recvAnswers]

/-! Sequencing. -/

@[simp] theorem Op.pure_apply {α : Type} (v : α) (c : Channel) : Op.pure v c = ⟨.ok v, c⟩ := rfl

@[simp] theorem Op.raise_apply {α : Type} (k : ErrorKind) (c : Channel) :
    (Op.raise k : Op α) c = ⟨.error k, c⟩ := rfl

theorem Op.bind_apply {α β : Type} (o : Op α) (f : α → Op β) (c : Channel) : o.bind f c = (o c).andThen f := rfl

@[simp] theorem Run.andThen_ok {α β : Type} (v : α) (c : Channel) (f : α → Op β) :
    (⟨.ok v, c⟩ : Run α).andThen f = f v c := rfl

@[simp] theorem Run.andThen_error {α β : Type} (k : ErrorKind) (c : Channel) (f : α → Op β) :
    (⟨.error k, c⟩ : Run α).andThen f = ⟨.error k, c⟩ := rfl

theorem Op.bind_of_ok {α β : Type} {o : Op α} {f : α → Op β} {c c' : Channel} {v : α} (h : o c = ⟨.ok v, c'⟩) :
    o.bind f c = f v c' := by
  rw [Op.bind_apply, h, Run.andThen_ok]

theorem Op.bind_of_error {α β : Type} {o : Op α} {f : α → Op β} {c c' : Channel} {k : ErrorKind}
    (h : o c = ⟨.error k, c'⟩) : o.bind f c = ⟨.error k, c'⟩ := by
  rw [Op.bind_apply, h, Run.andThen_error]

/-- The two ways a sequence ends. -/
theorem Op.bind_cases {α β : Type} (o : Op α) (f : α → Op β) (c : Channel) :
    (∃ v c', o c = ⟨.ok v, c'⟩ ∧ o.bind f c = f v c') ∨
    (∃ k c', o c = ⟨.error k, c'⟩ ∧ o.bind f c = ⟨.error k, c'⟩) := by
  cases h : o c with
  | mk outcome c' =>
    cases outcome with
    | ok v => exact .inl ⟨v, c', rfl, Op.bind_of_ok h⟩
    | error k => exact .inr ⟨k, c', rfl, Op.bind_of_error h⟩

@[simp] theorem Op.loop_zero {α : Type} (body : Nat → α → Op α) (i : Nat) (v : α) :
    Op.loop body i 0 v = Op.pure v := rfl

theorem Op.loop_succ {α : Type} (body : Nat → α → Op α) (i n : Nat) (v : α) :
    Op.loop body i (n + 1) v = (body i v).bind fun v' => Op.loop body (i + 1) n v' := rfl

/-- A relation between channels that is reflexive and transitive and holds across each turn holds across the loop. -/
theorem Op.loop_related {α : Type} (R : Channel → Channel → Prop) (refl : ∀ c, R c c)
    (trans : ∀ {a b c}, R a b → R b c → R a c) (body : Nat → α → Op α)
    (turn : ∀ i v c, R c (body i v c).chan) (i n : Nat) (v : α) (c : Channel) :
    R c (Op.loop body i n v c).chan := by
  induction n generalizing i v c with
  | zero => exact refl c
  | succ n ih =>
    rw [Op.loop_succ]
    rcases Op.bind_cases (body i v) (fun v' => Op.loop body (i + 1) n v') c with ⟨v', c', h, e⟩ | ⟨k, c', h, e⟩
    · rw [e]
      have := turn i v c
      rw [h] at this
      exact trans this (ih (i + 1) v' c')
    · rw [e]
      have := turn i v c
      rw [h] at this
      exact this

/-- A relation that holds across both parts of a sequence holds across it. -/
theorem Op.bind_related {α β : Type} (R : Channel → Channel → Prop) (trans : ∀ {a b c}, R a b → R b c → R a c)
    (o : Op α) (f : α → Op β) (first : ∀ c, R c (o c).chan) (second : ∀ v c, R c (f v c).chan) (c : Channel) :
    R c (o.bind f c).chan := by
  rcases Op.bind_cases o f c with ⟨v, c', h, e⟩ | ⟨k, c', h, e⟩
  · rw [e]
    have := first c
    rw [h] at this
    exact trans this (second v c')
  · rw [e]
    have := first c
    rw [h] at this
    exact this

/-! Slots: everything each of them can do. -/

theorem slot_apply (r : Rate) (b : Byte) (c : Channel) :
    slot r b c =
      ⟨if c.sendAhead 0 then .ok () else .error .channelFailure,
        c.advance 1 0 [.rate r, .flush, .send b (c.sendAhead 0)]⟩ := by
  cases h : c.sendAnswer c.sends <;>
    simp [slot, transmit, chRate, chFlush, chSend, Op.bind_apply, Run.andThen, Channel.sendAhead, Channel.advance,
      Channel.sendAnswer] at h ⊢ <;> simp [h]

theorem receive_apply (c : Channel) :
    receive c =
      ⟨match c.recvAhead 0 with | some v => .ok v | none => .error .channelFailure,
        c.advance 0 1 [.recv (c.recvAhead 0)]⟩ := by
  cases h : c.recvAnswer c.recvs <;>
    simp [receive, chRecv, Op.bind_apply, Run.andThen, Channel.recvAhead, Channel.advance, Channel.recvAnswer] at h ⊢ <;>
    simp [h]

theorem writeBit_apply (p : Params) (b : Bool) (c : Channel) :
    writeBit p b c =
      ⟨if c.sendAhead 0 then .ok () else .error .channelFailure, c.advance 1 0 (writeSlot p b (c.sendAhead 0))⟩ := by
  cases b <;> simp [writeBit, slot_apply, writeSlot, write0Byte]

/-- A send of a slot that fails ends it before the receive (rule R191). -/
theorem readBit_send_fails (p : Params) (c : Channel) (h : c.sendAhead 0 = false) :
    readBit p c = ⟨.error .channelFailure, c.advance 1 0 [.rate .fast, .flush, .send 0xFF false]⟩ := by
  rw [readBit, Op.bind_of_error (k := .channelFailure) (c' := c.advance 1 0 [.rate .fast, .flush, .send 0xFF false])]
  simp [slot_apply, h, readByteOut]

theorem readBit_no_echo (p : Params) (c : Channel) (h : c.sendAhead 0 = true) (h' : c.recvAhead 0 = none) :
    readBit p c = ⟨.error .channelFailure, c.advance 1 1 (readSlot none)⟩ := by
  simp [readBit, Op.bind_apply, slot_apply, receive_apply, h, h', readSlot, readByteOut]

theorem readBit_echo (p : Params) (c : Channel) (v : Byte) (h : c.sendAhead 0 = true)
    (h' : c.recvAhead 0 = some v) :
    readBit p c = ⟨.ok (sensedBit p v), c.advance 1 1 (readSlot (some v))⟩ := by
  simp [readBit, Op.bind_apply, slot_apply, receive_apply, h, h', readSlot, readByteOut]

theorem busReset_send_fails (p : Params) (c : Channel) (h : c.sendAhead 0 = false) :
    busReset p c =
      ⟨.error .channelFailure, c.advance 1 0 [.rate .slow, .flush, .send p.resetPattern false]⟩ := by
  simp [busReset, Op.bind_apply, slot_apply, h]

theorem busReset_no_echo (p : Params) (c : Channel) (h : c.sendAhead 0 = true) (h' : c.recvAhead 0 = none) :
    busReset p c = ⟨.error .channelFailure, c.advance 1 1 (resetSlot p none)⟩ := by
  simp [busReset, Op.bind_apply, slot_apply, receive_apply, h, h', resetSlot]

theorem busReset_echo (p : Params) (c : Channel) (v : Byte) (h : c.sendAhead 0 = true)
    (h' : c.recvAhead 0 = some v) :
    busReset p c = ⟨.ok (v != p.resetPattern), c.advance 1 1 (resetSlot p (some v))⟩ := by
  simp [busReset, Op.bind_apply, slot_apply, receive_apply, h, h', resetSlot]

theorem sensedBit_eq_echoBit (p : Params) (v : Byte) : sensedBit p v = echoBit p v := by
  simp [sensedBit, echoBit, BitVec.ult]

/-! How a command ends. -/

theorem hangs_of_returns {a : Channel} (h : a.hangAt = none) (b : Channel) : hangs a b = false := by
  simp [hangs, h]

/-- Where every call returns, a command answers a next state (rule R72). -/
theorem runCommand_returns {α : Type} (s : State) (o : Op α) (commit : α → State → State)
    (h : everyCallReturns s) : runCommand s o commit = .next (settle s (o s.chan) commit) := by
  simp [runCommand, hangs_of_returns h]

/-- Everything a command that answers a next state can have done (rules R28, R38, R196). -/
theorem runCommand_next {α : Type} {s t : State} {o : Op α} {commit : α → State → State}
    (h : runCommand s o commit = .next t) :
    (∃ v, (o s.chan).outcome = .ok v ∧ t = commit v (s.setChan (o s.chan).chan)) ∨
    (∃ k, (o s.chan).outcome = .error k ∧ t = endWithError k (s.setChan (o s.chan).chan)) := by
  unfold runCommand at h
  split at h
  · cases h
  · cases h
    unfold settle
    split
    · exact .inl ⟨_, ‹_›, rfl⟩
    · exact .inr ⟨_, ‹_›, rfl⟩

/-- A command stops only on a channel call that never returns (rule R72, U12). -/
theorem runCommand_fault {α : Type} {s : State} {o : Op α} {commit : α → State → State} {f : Fault}
    (h : runCommand s o commit = .fault f) : f = .channelHang ∧ hangs s.chan (o s.chan).chan = true := by
  unfold runCommand at h
  split at h
  · cases h
    exact ⟨rfl, ‹_›⟩
  · cases h

theorem settle_ok {α : Type} {s : State} {o : Op α} {commit : α → State → State} {v : α} {c : Channel}
    (h : o s.chan = ⟨.ok v, c⟩) : settle s (o s.chan) commit = commit v (s.setChan c) := by
  simp [settle, h]

theorem settle_error {α : Type} {s : State} {o : Op α} {commit : α → State → State} {k : ErrorKind} {c : Channel}
    (h : o s.chan = ⟨.error k, c⟩) : settle s (o s.chan) commit = endWithError k (s.setChan c) := by
  simp [settle, h]

/-! The step. -/

theorem step_idle {s : State} (h : s.pending = []) : step s = .next s := by
  simp [step, h, idle]

theorem step_input {s : State} {a : Input} {rest : List Input} (h : s.pending = a :: rest) :
    step s = perform a (s.setPending rest) := by
  simp [step, h]

end Sys2Proof.Machine
end

