-- ==== Sys2Proof/Laws/PerInstr.lean ====
section
/-!
SUPPORT. What holds of every command as syntax, one lemma per constructor: its word selects its own row of the opcode
table when it is well formed (rules R80 to R83).
-/
namespace Sys2Proof.Laws.EncodeRow

/-- The word of a well-formed command selects the row of the table that has the command's mnemonic. -/
def Statement (i : Instr) : Prop :=
  i.wellFormed = true → rowOf i ∈ opcodeRows ∧ selectsRow (encode i) (rowOf i) = true

theorem reset : Statement .reset := by unfold Statement; decide

theorem writeBit (b : Bool) : Statement (.writeBit b) := by unfold Statement; revert b; decide

theorem readBit : Statement .readBit := by unfold Statement; decide

theorem writeByte (v : Byte) : Statement (.writeByte v) := by
  intro _
  refine ⟨by simp [rowOf, opcodeRows], ?_⟩
  have h : (encode (.writeByte v) &&& 0xFF00#16) = 0x0400#16 := by
    revert v
    decide +kernel
  simp [selectsRow, rowOf, h]

theorem readByte : Statement .readByte := by unfold Statement; decide

theorem crcCompute (n : BitVec 4) : Statement (.crcCompute n) := by unfold Statement; revert n; decide +kernel

theorem crcVerify (n : BitVec 4) : Statement (.crcVerify n) := by unfold Statement; revert n; decide +kernel

theorem readAddress : Statement .readAddress := by unfold Statement; decide

theorem matchAddress : Statement .matchAddress := by unfold Statement; decide

theorem skipAddress : Statement .skipAddress := by unfold Statement; decide

theorem search (f : Bool) : Statement (.search f) := by unfold Statement; revert f; decide

end Sys2Proof.Laws.EncodeRow
end

