-- ==== Sys2Proof/Certificates/Slice0/Obligations.lean ====
section
/-!
DEFINITION. The statements for the provers, from the numbered rules of the spec. Channel numbering: `sendAhead k` and
`recvAhead k` are the answers to the `k`-th `ChSend` and `ChRecv` a command makes.
-/

open Sys2Proof Sys2Proof.Machine

/-! ## Decoding -/

/-- Rule R28: the word the host writes to `CMD` is decoded and its command run; the step takes the input and does nothing
else around `exec`. -/
def Obligations.StepRunsTheDecodedCommand : Prop :=
  ∀ (s : State) (w : CommandWord) (rest : List Input) (i : Instr),
    s.pending = .command w :: rest → decode w = .ok i → step s = exec i (s.setPending rest)

/-- Rule R90, whole: which words are illegal, by opcode and format; and what an illegal word does: no channel event,
`STATUS <- 0x0F`, nothing else. -/
def Obligations.IllegalWordsWriteStatusOnly : Prop :=
  (∀ w : CommandWord,
    (∃ e, decode w = .error e) ↔
      (w.extractLsb' 8 8 ∉
        [(0x01 : Byte), 0x02, 0x03, 0x04, 0x05, 0x10, 0x11, 0x20, 0x21, 0x22, 0x30]) ∨
      (w.extractLsb' 8 8 ∈ [(0x01 : Byte), 0x03, 0x05, 0x20, 0x21, 0x22] ∧ w.extractLsb' 0 8 ≠ 0) ∨
      (w.extractLsb' 8 8 ∈ [(0x02 : Byte), 0x30] ∧ w.extractLsb' 1 7 ≠ 0) ∨
      (w.extractLsb' 8 8 ∈ [(0x10 : Byte), 0x11] ∧ (w.extractLsb' 4 4 ≠ 0 ∨ 9 < (w.extractLsb' 0 4).toNat))) ∧
  (∀ (s : State) (w : CommandWord) (rest : List Input) (e : DecodeError),
    s.pending = .command w :: rest → decode w = .error e →
    step s = .next { s with pending := rest, status := 0x0F })

/-- Rule R83: a word decodes to the command of a row exactly when it selects the row. -/
def Obligations.DecodeFollowsTheOpcodeTable : Prop :=
  ∀ (w : CommandWord), ∀ r ∈ opcodeRows, selectsRow w r = true ↔ ∃ i, decode w = .ok i ∧ rowOf i = r

/-- Rules R80 to R83: decoding the word of a well-formed command gives the command back, every operand included. -/
def Obligations.DecodeOfEncode : Prop :=
  ∀ i : Instr, i.wellFormed = true → decode (encode i) = .ok i

/-- Rules R80 to R83, R90: a legal word is the word of the command it decodes to, which is well formed. -/
def Obligations.EncodeOfDecode : Prop :=
  ∀ (w : CommandWord) (i : Instr), decode w = .ok i → i.wellFormed = true ∧ encode i = w

/-- Words of rule R83, each with the command it stands for. -/
def Obligations.SampleWordsDecode : Prop :=
  decode 0x0100 = .ok .reset ∧ decode 0x0201 = .ok (.writeBit true) ∧ decode 0x0300 = .ok .readBit ∧
  decode 0x04CC = .ok (.writeByte 0xCC) ∧ decode 0x0500 = .ok .readByte ∧
  decode 0x1009 = .ok (.crcCompute 9) ∧ decode 0x1100 = .ok (.crcVerify 0) ∧
  decode 0x2000 = .ok .readAddress ∧ decode 0x2100 = .ok .matchAddress ∧ decode 0x2200 = .ok .skipAddress ∧
  decode 0x3000 = .ok (.search false) ∧ decode 0x3001 = .ok (.search true)

/-! ## Bit transport -/

/-- Rule R100, its word and all four paths. -/
def Obligations.ResetReportsPresence : Prop :=
  encode .reset = 0x0100 ∧
  ∀ s : State, everyCallReturns s →
    (s.chan.sendAhead 0 = false →
      exec .reset s = .next { s with
        status := 0x01, chan := s.chan.advance 1 0 [.rate .slow, .flush, .send s.params.resetPattern false] }) ∧
    (s.chan.sendAhead 0 = true → s.chan.recvAhead 0 = none →
      exec .reset s = .next { s with
        status := 0x01, chan := s.chan.advance 1 1 (resetSlot s.params none) }) ∧
    (∀ v : Byte, s.chan.sendAhead 0 = true → s.chan.recvAhead 0 = some v →
      exec .reset s = .next { s with
        status := if v = s.params.resetPattern then 0x00 else 0x10,
        chan := s.chan.advance 1 1 (resetSlot s.params (some v)) })

/-- Rule R101, its words and both paths, with `WRITE1_BYTE` (rules R6, R84, D10) for the full-high byte; its default is
0xFF. -/
def Obligations.WriteBitSendsOneSlot : Prop :=
  encode (.writeBit false) = 0x0200 ∧ encode (.writeBit true) = 0x0201 ∧ defaultParams.write1Byte = 0xFF ∧
  ∀ (b : Bool) (s : State), everyCallReturns s →
    exec (.writeBit b) s = .next { s with
      status := if s.chan.sendAhead 0 then 0x00 else 0x01,
      chan := s.chan.advance 1 0 (writeSlot s.params b (s.chan.sendAhead 0)) }

/-- Rule R102, its word and all three paths: the bit is 1 exactly when the echo exceeds the threshold. -/
def Obligations.ReadBitThresholdsTheEcho : Prop :=
  encode .readBit = 0x0300 ∧
  ∀ s : State, everyCallReturns s →
    (s.chan.sendAhead 0 = false →
      exec .readBit s = .next { s with
        status := 0x01, chan := s.chan.advance 1 0 readSlotCut }) ∧
    (s.chan.sendAhead 0 = true → s.chan.recvAhead 0 = none →
      exec .readBit s = .next { s with status := 0x01, chan := s.chan.advance 1 1 (readSlot none) }) ∧
    (∀ v : Byte, s.chan.sendAhead 0 = true → s.chan.recvAhead 0 = some v →
      exec .readBit s = .next { s with
        data := if s.params.rdThreshold.toNat < v.toNat then 0x01 else 0x00,
        status := 0x00,
        chan := s.chan.advance 1 1 (readSlot (some v)) })

/-- Rule R103, its words and all paths: eight write slots, least significant bit first; the first failing send ends the
command, and the slots after it are not sent. -/
def Obligations.WriteByteSendsEightSlotsLsbFirst : Prop :=
  (∀ v : Byte, (encode (.writeByte v)).toNat = 0x0400 + v.toNat) ∧
  ∀ (v : Byte) (s : State), everyCallReturns s →
    (sendsSucceed s.chan 8 →
      exec (.writeByte v) s = .next { s with
        status := 0x00, chan := s.chan.advance 8 0 (writeSlots s.params 8 fun i => v.getLsbD i) }) ∧
    (∀ i < 8, sendsSucceed s.chan i → s.chan.sendAhead i = false →
      exec (.writeByte v) s = .next { s with
        status := 0x01,
        chan := s.chan.advance (i + 1) 0
          (writeSlots s.params i (fun j => v.getLsbD j) ++ writeSlot s.params (v.getLsbD i) false) })

/-- Rule R104, its word and all paths: eight read slots, the first bit into bit 0; the first failing slot ends the command
and `DATA` keeps its old value. -/
def Obligations.ReadByteAssemblesLsbFirst : Prop :=
  encode .readByte = 0x0500 ∧
  ∀ (s : State) (echo : Nat → Byte), everyCallReturns s →
    (∀ v : Byte, sendsSucceed s.chan 8 → echoesAre s.chan 8 echo →
      (∀ i < 8, v.getLsbD i = echoBit s.params (echo i)) →
      exec .readByte s = .next { s with
        data := v, status := 0x00, chan := s.chan.advance 8 8 (readSlots 8 echo) }) ∧
    (∀ i < 8, sendsSucceed s.chan i → echoesAre s.chan i echo → s.chan.sendAhead i = false →
      exec .readByte s = .next { s with
        status := 0x01,
        chan := s.chan.advance (i + 1) i (readSlots i echo ++ readSlotCut) }) ∧
    (∀ i < 8, sendsSucceed s.chan (i + 1) → echoesAre s.chan i echo → s.chan.recvAhead i = none →
      exec .readByte s = .next { s with
        status := 0x01, chan := s.chan.advance (i + 1) (i + 1) (readSlots i echo ++ readSlot none) })

/-! ## Integrity check -/

/-- The table of rule R123 for the eight bytes with one bit. -/
def crcTableBasis : List Byte := [0x5E, 0xBC, 0x61, 0xC2, 0x9D, 0x23, 0x46, 0x8C]

/-- `T[d]` of rule R123: the XOR of the entries of the 1 bits of `d`. -/
def crcTable (d : Byte) : Byte :=
  (List.range 8).foldl (fun t i => if d.getLsbD i then t ^^^ crcTableBasis.getD i 0 else t) 0

/-- Rule R120, its words and its effect: `DATA` is the checksum of `BUF[0..n-1]`; nothing else but `STATUS` is written,
and the command cannot fail. -/
def Obligations.CrcComputeLeavesTheChecksum : Prop :=
  ∀ (n : BitVec 4) (s : State), n.toNat ≤ 9 →
    (encode (.crcCompute n)).toNat = 0x1000 + n.toNat ∧
    exec (.crcCompute n) s = .next { s with data := crc8 (s.buf.toList.take n.toNat), status := 0x00 }

/-- The byte-at-a-time form of rule R123: the bit loop of rule R120 is `crc <- T[crc XOR d]` from the seed 0, with the
table the rule lists. -/
def Obligations.ChecksumHasTheTableForm : Prop :=
  ∀ block : List Byte, crc8 block = block.foldl (fun crc d => crcTable (crc ^^^ d)) 0x00

/-- Rule R121, its words and its effect: the flag says whether the last byte is the checksum of those before it; an empty
block fails; nothing but `STATUS` is written. -/
def Obligations.CrcVerifyComparesTheLastByte : Prop :=
  ∀ (n : BitVec 4) (s : State), n.toNat ≤ 9 →
    (encode (.crcVerify n)).toNat = 0x1100 + n.toNat ∧
    (s.buf.toList.take n.toNat = [] → exec (.crcVerify n) s = .next { s with status := 0x00 }) ∧
    (∀ (block : List Byte) (last : Byte), s.buf.toList.take n.toNat = block ++ [last] →
      exec (.crcVerify n) s = .next { s with status := if crc8 block = last then 0x10 else 0x00 })

/-- Rule R121 corner iii: a block that is not empty passes exactly when the checksum of the whole is 0. -/
def Obligations.VerifyMeansChecksumZero : Prop :=
  ∀ block : List Byte, block ≠ [] → (verify block = true ↔ crc8 block = 0x00)

/-- Rule R122: appending the computed checksum always passes. -/
def Obligations.AppendedChecksumVerifies : Prop :=
  ∀ block : List Byte, verify (block ++ [crc8 block]) = true

/-- Rule R122: flipping any single bit of a block that passes makes it fail. -/
def Obligations.SingleBitFlipFails : Prop :=
  ∀ (before after : List Byte) (d : Byte) (i : Nat), i < 8 → verify (before ++ d :: after) = true →
    verify (before ++ setBit d i (!d.getLsbD i) :: after) = false

/-- Rule R122: the checksum is linear over XOR. -/
def Obligations.ChecksumIsLinear : Prop :=
  ∀ a b : List Byte, a.length = b.length → crc8 (List.zipWith (· ^^^ ·) a b) = crc8 a ^^^ crc8 b

/-! ## ROM addressing -/

/-- The head of each addressing command when it goes wrong (rules R133, R134): no presence, a failed send, no echo. -/
def addressingHeadFails (i : Instr) (s : State) : Prop :=
  (s.chan.sendAhead 0 = true → s.chan.recvAhead 0 = some s.params.resetPattern →
    exec i s = .next { s with
      status := 0x02, chan := s.chan.advance 1 1 (resetSlot s.params (some s.params.resetPattern)) }) ∧
  (s.chan.sendAhead 0 = false →
    exec i s = .next { s with
      status := 0x01, chan := s.chan.advance 1 0 [.rate .slow, .flush, .send s.params.resetPattern false] }) ∧
  (s.chan.sendAhead 0 = true → s.chan.recvAhead 0 = none →
    exec i s = .next { s with status := 0x01, chan := s.chan.advance 1 1 (resetSlot s.params none) })

/-- Rule R130, its word and all paths: the 64 echoes are the bits of `ADDR`, bit 0 first; on any error `ADDR` keeps its
old value and the command ends at the failing call. -/
def Obligations.ReadAddressAssemblesTheAddress : Prop :=
  encode .readAddress = 0x2000 ∧
  ∀ s : State, everyCallReturns s →
    addressingHeadFails .readAddress s ∧
    ∀ presence : Byte, s.chan.recvAhead 0 = some presence → presence ≠ s.params.resetPattern →
      (∀ i < 8, sendsSucceed s.chan (i + 1) → s.chan.sendAhead (i + 1) = false →
        exec .readAddress s = .next { s with
          status := 0x01,
          chan := s.chan.advance (i + 2) 1
            (resetSlot s.params (some presence) ++
              writeSlots s.params i (fun j => s.params.cmdReadAddress.getLsbD j) ++
              writeSlot s.params (s.params.cmdReadAddress.getLsbD i) false) }) ∧
      ∀ echo : Nat → Byte,
        (∀ a : Word64, sendsSucceed s.chan 73 → (∀ k < 64, s.chan.recvAhead (k + 1) = some (echo k)) →
          (∀ k < 64, a.getLsbD k = echoBit s.params (echo k)) →
          exec .readAddress s = .next { s with
            addr := a, status := 0x00,
            chan := s.chan.advance 73 65
              (resetSlot s.params (some presence) ++
                writeSlots s.params 8 (fun j => s.params.cmdReadAddress.getLsbD j) ++ readSlots 64 echo) }) ∧
        (∀ i < 64, sendsSucceed s.chan (9 + i) → (∀ k < i, s.chan.recvAhead (k + 1) = some (echo k)) →
          s.chan.sendAhead (9 + i) = false →
          exec .readAddress s = .next { s with
            status := 0x01,
            chan := s.chan.advance (10 + i) (i + 1)
              (resetSlot s.params (some presence) ++
                writeSlots s.params 8 (fun j => s.params.cmdReadAddress.getLsbD j) ++ readSlots i echo ++
                readSlotCut) }) ∧
        (∀ i < 64, sendsSucceed s.chan (10 + i) → (∀ k < i, s.chan.recvAhead (k + 1) = some (echo k)) →
          s.chan.recvAhead (i + 1) = none →
          exec .readAddress s = .next { s with
            status := 0x01,
            chan := s.chan.advance (10 + i) (i + 2)
              (resetSlot s.params (some presence) ++
                writeSlots s.params 8 (fun j => s.params.cmdReadAddress.getLsbD j) ++ readSlots i echo ++
                readSlot none) })

/-- The 72 bits `MATCH_ADDRESS` writes: the command byte, then `ADDR`, each from bit 0 (rules R62, R131). -/
def matchBit (s : State) (k : Nat) : Bool :=
  if k < 8 then s.params.cmdMatchAddress.getLsbD k else s.addr.getLsbD (k - 8)

/-- Rule R131, its word and all paths: exactly 72 write slots carry the command byte and the 64 bits of `ADDR`. -/
def Obligations.MatchAddressSendsTheAddress : Prop :=
  encode .matchAddress = 0x2100 ∧
  ∀ s : State, everyCallReturns s →
    addressingHeadFails .matchAddress s ∧
    ∀ presence : Byte, s.chan.recvAhead 0 = some presence → presence ≠ s.params.resetPattern →
      (sendsSucceed s.chan 73 →
        exec .matchAddress s = .next { s with
          status := 0x00,
          chan := s.chan.advance 73 1 (resetSlot s.params (some presence) ++ writeSlots s.params 72 (matchBit s)) }) ∧
      (∀ i < 72, sendsSucceed s.chan (i + 1) → s.chan.sendAhead (i + 1) = false →
        exec .matchAddress s = .next { s with
          status := 0x01,
          chan := s.chan.advance (i + 2) 1
            (resetSlot s.params (some presence) ++ writeSlots s.params i (matchBit s) ++
              writeSlot s.params (matchBit s i) false) })

/-- Rule R132, its word and all paths. -/
def Obligations.SkipAddressSendsTheCommand : Prop :=
  encode .skipAddress = 0x2200 ∧
  ∀ s : State, everyCallReturns s →
    addressingHeadFails .skipAddress s ∧
    ∀ presence : Byte, s.chan.recvAhead 0 = some presence → presence ≠ s.params.resetPattern →
      (sendsSucceed s.chan 9 →
        exec .skipAddress s = .next { s with
          status := 0x00,
          chan := s.chan.advance 9 1
            (resetSlot s.params (some presence) ++
              writeSlots s.params 8 (fun j => s.params.cmdSkipAddress.getLsbD j)) }) ∧
      (∀ i < 8, sendsSucceed s.chan (i + 1) → s.chan.sendAhead (i + 1) = false →
        exec .skipAddress s = .next { s with
          status := 0x01,
          chan := s.chan.advance (i + 2) 1
            (resetSlot s.params (some presence) ++
              writeSlots s.params i (fun j => s.params.cmdSkipAddress.getLsbD j) ++
              writeSlot s.params (s.params.cmdSkipAddress.getLsbD i) false) })

/-- Rule R133: no presence ends each addressing command with `ResetFailure` after the 4 events of the reset. -/
def Obligations.AddressingNeedsPresence : Prop :=
  ∀ i ∈ [Instr.readAddress, .matchAddress, .skipAddress], ∀ s : State, everyCallReturns s →
    s.chan.sendAhead 0 = true → s.chan.recvAhead 0 = some s.params.resetPattern →
    exec i s = .next { s with
      status := 0x02, chan := s.chan.advance 1 1 (resetSlot s.params (some s.params.resetPattern)) }

/-- Rule R134: a channel failure inside the reset at the head is `ChannelFailure`, not `ResetFailure`. -/
def Obligations.AddressingResetChannelFailure : Prop :=
  ∀ i ∈ [Instr.readAddress, .matchAddress, .skipAddress], ∀ s : State, everyCallReturns s →
    (s.chan.sendAhead 0 = false →
      exec i s = .next { s with
        status := 0x01,
        chan := s.chan.advance 1 0 [.rate .slow, .flush, .send s.params.resetPattern false] }) ∧
    (s.chan.sendAhead 0 = true → s.chan.recvAhead 0 = none →
      exec i s = .next { s with status := 0x01, chan := s.chan.advance 1 1 (resetSlot s.params none) })

/-! ## Device search -/

/-- Rule R141: an exhausted Search State answers "no more devices" without touching the bus, whatever `ADDR`, `LDI` and
the channel are; with `SSV = 0` the command always goes to the bus, whatever `DISC` holds. -/
def Obligations.SearchExhaustedTouchesNoBus : Prop :=
  ∀ (f : Bool) (s : State),
    (s.ssv = true → s.disc = 0 → exec (.search f) s = .next { s with status := 0x00 }) ∧
    (s.ssv = false → everyCallReturns s →
      ∃ t, exec (.search f) s = .next t ∧ s.chan.sends < t.chan.sends)

/-- Rule R142: no presence is "no more devices" after the 4 events of the reset; a channel failure in the reset ends the
command with `ChannelFailure`. -/
def Obligations.SearchResetOutcomes : Prop :=
  ∀ (f : Bool) (s : State), everyCallReturns s → ¬(s.ssv = true ∧ s.disc = 0) →
    (s.chan.sendAhead 0 = true → s.chan.recvAhead 0 = some s.params.resetPattern →
      exec (.search f) s = .next { s with
        status := 0x00, chan := s.chan.advance 1 1 (resetSlot s.params (some s.params.resetPattern)) }) ∧
    (s.chan.sendAhead 0 = false →
      exec (.search f) s = .next { s with
        status := 0x01,
        chan := s.chan.advance 1 0 [.rate .slow, .flush, .send s.params.resetPattern false] }) ∧
    (s.chan.sendAhead 0 = true → s.chan.recvAhead 0 = none →
      exec (.search f) s = .next { s with status := 0x01, chan := s.chan.advance 1 1 (resetSlot s.params none) })

/-- The first position that step 6 resolves (rule R140). -/
def searchStart (s : State) : Nat := if s.ssv then s.ldi.toNat + 1 else 0

/-- The bit written back at position `i` (rules R145 to R147), the echoes of the pairs being given. -/
def searchBit (s : State) (echo : Nat → Byte) (i : Nat) : Bool :=
  if s.ssv then
    if i < s.ldi.toNat then s.addr.getLsbD i
    else if i = s.ldi.toNat then true
    else echoBit s.params (echo (2 * i))
  else echoBit s.params (echo (2 * i))

/-- Both slots of position `i` read 0: a fresh discrepancy (rule R144). -/
def searchCollision (s : State) (echo : Nat → Byte) (i : Nat) : Bool :=
  !echoBit s.params (echo (2 * i)) && !echoBit s.params (echo (2 * i + 1))

/-- Nobody answers at position `i` (rule R144). -/
def searchNobody (s : State) (echo : Nat → Byte) (i : Nat) : Bool :=
  echoBit s.params (echo (2 * i)) && echoBit s.params (echo (2 * i + 1))

/-- The mask bit of position `i` after the walk (rules R145 to R147). -/
def searchMask (s : State) (echo : Nat → Byte) (i : Nat) : Bool :=
  if s.ssv then
    if i < s.ldi.toNat then s.disc.getLsbD i
    else if i = s.ldi.toNat then false
    else s.disc.getLsbD i || searchCollision s echo i
  else searchCollision s echo i

/-- The positions that set the running index (rules R145, R147). -/
def searchMarks (s : State) (echo : Nat → Byte) (i : Nat) : Bool :=
  if s.ssv then
    if i < s.ldi.toNat then s.disc.getLsbD i else !decide (i = s.ldi.toNat) && searchCollision s echo i
  else searchCollision s echo i

/-- The walk goes on at position `i`: a collision at the forced branch, an answer after it (rules R146, R147). -/
def searchGoesOn (s : State) (echo : Nat → Byte) (i : Nat) : Bool :=
  if s.ssv && i == s.ldi.toNat then searchCollision s echo i
  else decide (i < searchStart s) || !searchNobody s echo i

/-- The head of every walk: reset with presence and the command byte (rules R142, R143). -/
def searchHead (s : State) (f : Bool) (presence : Byte) : List Event :=
  resetSlot s.params (some presence) ++
    writeSlots s.params 8 (fun j => (if f then s.params.cmdSearchAlarm else s.params.cmdSearch).getLsbD j)

/-- The events of a walk up to position `i`, of which every earlier position went on (rules R142 to R147). -/
def searchUpTo (s : State) (f : Bool) (presence : Byte) (echo : Nat → Byte) (i : Nat) : List Event :=
  searchHead s f presence ++ walkSlots s.params i echo (searchBit s echo)

/-- Rules R140, R145 to R149 for a walk that reaches step 7: with every call completing, presence, a collision at the
forced branch and an answer at every later position, the command assembles the address, the mask and the index from the
Search State and the 128 echoes, makes exactly the events of rule R150, and commits them or ends with
`ChecksumMismatch`. -/
def Obligations.SearchWalkResult : Prop :=
  ∀ (f : Bool) (s : State) (presence : Byte) (echo : Nat → Byte) (a d : Word64),
    everyCallReturns s → ¬(s.ssv = true ∧ s.disc = 0) → sendsSucceed s.chan 201 →
    s.chan.recvAhead 0 = some presence → presence ≠ s.params.resetPattern →
    (∀ k < 128, s.chan.recvAhead (k + 1) = some (echo k)) →
    (∀ i < 64, searchGoesOn s echo i = true) →
    (∀ i < 64, a.getLsbD i = searchBit s echo i) →
    (∀ i < 64, d.getLsbD i = searchMask s echo i) →
    (verify (addressBytes a) = true →
      exec (.search f) s = .next { s with
        addr := a, disc := d, ldi := BitVec.ofNat 6 (lastMarked (searchMarks s echo) 64), ssv := true,
        status := 0x10,
        chan := s.chan.advance 201 129 (searchHead s f presence ++ walkSlots s.params 64 echo (searchBit s echo)) }) ∧
    (verify (addressBytes a) = false →
      exec (.search f) s = .next { s with
        status := 0x03,
        chan := s.chan.advance 201 129 (searchHead s f presence ++ walkSlots s.params 64 echo (searchBit s echo)) })

/-- Rules R106, R107, R143 to R147 and the `UnexpectedResponse` and `ChannelFailure` rows of rule R151, for a search that
found presence and ends before step 7: a failed send of the command byte; at position `i` (replay, forced branch or
later), a failed send or a missing echo of either read slot, no collision at the forced branch or nobody after it, a
failed write slot. The trace ends there and no register but `STATUS` is written. -/
def Obligations.SearchEndsEarly : Prop :=
  ∀ (f : Bool) (s : State) (presence : Byte) (echo : Nat → Byte) (i : Nat),
    everyCallReturns s → ¬(s.ssv = true ∧ s.disc = 0) →
    s.chan.recvAhead 0 = some presence → presence ≠ s.params.resetPattern →
    (i < 8 → sendsSucceed s.chan (i + 1) → s.chan.sendAhead (i + 1) = false →
      exec (.search f) s = .next { s with
        status := 0x01,
        chan := s.chan.advance (i + 2) 1
          (resetSlot s.params (some presence) ++
            writeSlots s.params i (fun j => (if f then s.params.cmdSearchAlarm else s.params.cmdSearch).getLsbD j) ++
            writeSlot s.params ((if f then s.params.cmdSearchAlarm else s.params.cmdSearch).getLsbD i) false) }) ∧
    (i < 64 → sendsSucceed s.chan (9 + 3 * i) → (∀ k < 2 * i, s.chan.recvAhead (k + 1) = some (echo k)) →
      (∀ j < i, searchGoesOn s echo j = true) →
      (s.chan.sendAhead (9 + 3 * i) = false →
        exec (.search f) s = .next { s with
          status := 0x01,
          chan := s.chan.advance (10 + 3 * i) (2 * i + 1) (searchUpTo s f presence echo i ++ readSlotCut) }) ∧
      (s.chan.sendAhead (9 + 3 * i) = true → s.chan.recvAhead (2 * i + 1) = none →
        exec (.search f) s = .next { s with
          status := 0x01,
          chan := s.chan.advance (10 + 3 * i) (2 * i + 2) (searchUpTo s f presence echo i ++ readSlot none) }) ∧
      (s.chan.sendAhead (9 + 3 * i) = true → s.chan.recvAhead (2 * i + 1) = some (echo (2 * i)) →
        (s.chan.sendAhead (10 + 3 * i) = false →
          exec (.search f) s = .next { s with
            status := 0x01,
            chan := s.chan.advance (11 + 3 * i) (2 * i + 2)
              (searchUpTo s f presence echo i ++ readSlot (some (echo (2 * i))) ++ readSlotCut) }) ∧
        (s.chan.sendAhead (10 + 3 * i) = true → s.chan.recvAhead (2 * i + 2) = none →
          exec (.search f) s = .next { s with
            status := 0x01,
            chan := s.chan.advance (11 + 3 * i) (2 * i + 3)
              (searchUpTo s f presence echo i ++ readSlot (some (echo (2 * i))) ++ readSlot none) }) ∧
        (s.chan.sendAhead (10 + 3 * i) = true → s.chan.recvAhead (2 * i + 2) = some (echo (2 * i + 1)) →
          (searchGoesOn s echo i = false →
            exec (.search f) s = .next { s with
              status := 0x04,
              chan := s.chan.advance (11 + 3 * i) (2 * i + 3)
                (searchUpTo s f presence echo i ++ readSlot (some (echo (2 * i))) ++
                  readSlot (some (echo (2 * i + 1)))) }) ∧
          (searchGoesOn s echo i = true → s.chan.sendAhead (11 + 3 * i) = false →
            exec (.search f) s = .next { s with
              status := 0x01,
              chan := s.chan.advance (12 + 3 * i) (2 * i + 3)
                (searchUpTo s f presence echo i ++ readSlot (some (echo (2 * i))) ++
                  readSlot (some (echo (2 * i + 1))) ++ writeSlot s.params (searchBit s echo i) false) }))))

/-- Rules R154 and R155, the first call: on a bus of devices that answers as rule R144 says, a search from an empty state
finds the device with the least `rev64` key, and leaves the Search State of rule R157 for it. -/
def Obligations.SearchFindsTheFirstDevice : Prop :=
  ∀ (ds : List Word64) (a : Word64) (f : Bool) (s : State),
    a ∈ ds → (∀ d ∈ ds, d = a ∨ rev64 a < rev64 d) → verify (addressBytes a) = true →
    everyCallReturns s → s.ssv = false → busAnswers s ds a →
    ∃ t, exec (.search f) s = .next t ∧ t.status = 0x10 ∧ searchStateAfter ds a t

/-- Rules R154 and R155, a later call: from the Search State left by device `b`, the search finds the device that follows
it in the order of `rev64`, and leaves the Search State for that one. -/
def Obligations.SearchFindsTheNextDevice : Prop :=
  ∀ (ds : List Word64) (a b : Word64) (f : Bool) (s : State),
    a ∈ ds → b ∈ ds → rev64 b < rev64 a → (∀ d ∈ ds, rev64 b < rev64 d → d = a ∨ rev64 a < rev64 d) →
    verify (addressBytes a) = true →
    everyCallReturns s → searchStateAfter ds b s → busAnswers s ds a →
    ∃ t, exec (.search f) s = .next t ∧ t.status = 0x10 ∧ searchStateAfter ds a t

/-- Rule R154, the closing call: after the device with the greatest key, "no more devices" without any event. -/
def Obligations.SearchEndsAfterTheLastDevice : Prop :=
  ∀ (ds : List Word64) (b : Word64) (f : Bool) (s : State),
    b ∈ ds → (∀ d ∈ ds, rev64 d ≤ rev64 b) → searchStateAfter ds b s →
    exec (.search f) s = .next { s with status := 0x00 }

/-- Rule R39: `SEARCH` keeps what the rule says of a Search State, whatever the channel answers; so does every command that
does not write `ADDR` otherwise. -/
def Obligations.SearchStateStaysSound : Prop :=
  ∀ (i : Instr) (s t : State), i ≠ .readAddress → searchStateSound s → exec i s = .next t → searchStateSound t

/-- Rule R150: a search that reaches step 7, found or `ChecksumMismatch`, makes exactly 732 events. -/
def Obligations.SearchToStepSevenMakes732Events : Prop :=
  ∀ (f : Bool) (s t : State), exec (.search f) s = .next t → t.status = 0x10 ∨ t.status = 0x03 →
    t.chan.trace.length = s.chan.trace.length + 732

/-! ## Whole-machine rules -/

/-- Rule R72: where every channel call returns, every command answers a next state, and the events it makes are bounded
as the rule lists. -/
def Obligations.EveryCommandEnds : Prop :=
  ∀ (i : Instr) (s : State), everyCallReturns s →
    ∃ t events, exec i s = .next t ∧ t.chan.trace = s.chan.trace ++ events ∧ events.length ≤ eventBound i

/-- Rule R72 and U12, with the model's deduction (log entry 4, DEDUCED) that of the channel calls only a send can fail to
return: a command stops exactly when the send that never returns is one that it makes where every call returns, the first
or a later one, and otherwise it ends as it does there; nothing else stops a command. -/
def Obligations.OnlyAHangStopsACommand : Prop :=
  (∀ (i : Instr) (s t : State), exec i s.withoutHang = .next t →
    (∀ n, s.chan.hangAt = some n → s.chan.sends ≤ n → n < t.chan.sends → exec i s = .fault .channelHang) ∧
    ((∀ n, s.chan.hangAt = some n → n < s.chan.sends ∨ t.chan.sends ≤ n) →
      exec i s = .next (t.setChan { t.chan with hangAt := s.chan.hangAt }))) ∧
  (∀ (i : Instr) (s : State), s.chan.hangAt = some s.chan.sends → (∀ n, i ≠ .crcCompute n ∧ i ≠ .crcVerify n) →
    (∀ f, i = .search f → ¬(s.ssv = true ∧ s.disc = 0)) → exec i s = .fault .channelHang) ∧
  (∀ (i : Instr) (s : State) (r : Fault), exec i s = .fault r →
    r = .channelHang ∧ ∃ n, s.chan.hangAt = some n ∧ s.chan.sends ≤ n) ∧
  (∀ (i : Instr) (s : State) (r : Refusal), exec i s ≠ .refused r)

/-- Rule R196: ending a command with an error writes `STATUS` with FLAG = 0 and no other register. -/
def Obligations.ErrorWritesStatusOnly : Prop :=
  ∀ (i : Instr) (s t : State), exec i s = .next t → statusCode t.status ≠ 0x0 →
    statusFlag t.status = false ∧ t.status.extractLsb' 5 3 = 0 ∧ t = { s with status := t.status, chan := t.chan }

/-- Rule R202: the codes each legal command can end with. -/
def Obligations.CommandsEndWithTheirCodes : Prop :=
  ∀ (i : Instr) (s t : State), i.wellFormed = true → exec i s = .next t → statusCode t.status ∈ possibleCodes i

/-- Rules R32 and R38 for the commands that write no register but `STATUS`. -/
def Obligations.StatusOnlyCommandsFrame : Prop :=
  ∀ (i : Instr) (s t : State),
    ((i = .reset ∨ i = .matchAddress ∨ i = .skipAddress) ∨ (∃ b, i = .writeBit b) ∨ (∃ v, i = .writeByte v) ∨
      ∃ n, i = .crcVerify n) →
    exec i s = .next t → t = { s with status := t.status, chan := t.chan }

/-- Rule R38 for the commands that write `DATA`: nothing else but `STATUS`, and FLAG is 0. -/
def Obligations.DataCommandsFrame : Prop :=
  ∀ (i : Instr) (s t : State), (i = .readBit ∨ i = .readByte ∨ ∃ n, i = .crcCompute n) →
    exec i s = .next t →
    statusFlag t.status = false ∧ t = { s with status := t.status, data := t.data, chan := t.chan }

/-- Rule R38 for `READ_ADDRESS`: nothing but `ADDR` and `STATUS`, and FLAG is 0. -/
def Obligations.ReadAddressFrame : Prop :=
  ∀ s t : State, exec .readAddress s = .next t →
    statusFlag t.status = false ∧ t = { s with status := t.status, addr := t.addr, chan := t.chan }

/-- Rules R38 and R151 for `SEARCH`: the Search State is written exactly when `STATUS = 0x10`, and then `SSV <- 1`;
otherwise nothing but `STATUS`. -/
def Obligations.SearchFrame : Prop :=
  ∀ (f : Bool) (s t : State), exec (.search f) s = .next t →
    (t.status = 0x10 ∧ verify (addressBytes t.addr) = true ∧
      t = { s with status := t.status, addr := t.addr, disc := t.disc, ldi := t.ldi, ssv := true, chan := t.chan }) ∨
    (t.status ∈ [(0x00 : Byte), 0x01, 0x03, 0x04] ∧ t = { s with status := t.status, chan := t.chan })

/-- Rules R10 and R67: a command leaves the channel's inputs alone (that the answers stand in the state as inputs is the
model's choice, log entry 3) and appends its own events, its sends and receives being counted and answered in their order;
the checksum commands make no event. -/
def Obligations.ChannelFrame : Prop :=
  (∀ (i : Instr) (s t : State), exec i s = .next t →
    ∃ events, t.chan = s.chan.advance (sendAnswers events).length (recvAnswers events).length events ∧
      sendAnswers events = (List.range (sendAnswers events).length).map s.chan.sendAhead ∧
      recvAnswers events = (List.range (recvAnswers events).length).map s.chan.recvAhead) ∧
  (∀ (i : Instr) (n : BitVec 4) (s t : State), (i = .crcCompute n ∨ i = .crcVerify n) → exec i s = .next t →
    t.chan = s.chan)

/-- Rules R57 and R105: what a command does to the channel is a sequence of resets and bit slots, each beginning with its
rate and a flush and sending one of the bytes of the rule. -/
def Obligations.TraceIsMadeOfSlots : Prop :=
  ∀ (i : Instr) (s t : State), exec i s = .next t →
    ∃ slots : List (List Event), t.chan.trace = s.chan.trace ++ slots.flatten ∧
      ∀ x ∈ slots, legalSlot s.params x = true

/-- Rules R33 and R236: the rate a command leaves the channel at. For every command, SLOW where its last slot is a reset,
FAST where it is a bit slot, as it was where it made none. By command: SLOW after `RESET`, FAST after the bit and byte
commands, unchanged after a checksum command; after an addressing command or a `SEARCH`, SLOW where it ended in its reset
(one send), FAST where it went further, and unchanged after an exhausted `SEARCH`. -/
def Obligations.RateLeftOnTheChannel : Prop :=
  ∀ (i : Instr) (s t : State), exec i s = .next t →
    (∃ slots : List (List Event), t.chan.trace = s.chan.trace ++ slots.flatten ∧
      (∀ x ∈ slots, legalSlot s.params x = true) ∧
      (slots = [] → lastRate t.chan.trace = lastRate s.chan.trace) ∧
      (∀ x, slots.getLast? = some x →
        lastRate t.chan.trace = some (if x.head? = some (.rate .slow) then .slow else .fast))) ∧
    (i = .reset → lastRate t.chan.trace = some .slow) ∧
    ((∃ b, i = .writeBit b) ∨ i = .readBit ∨ (∃ v, i = .writeByte v) ∨ i = .readByte →
      lastRate t.chan.trace = some .fast) ∧
    ((∃ n, i = .crcCompute n) ∨ (∃ n, i = .crcVerify n) → lastRate t.chan.trace = lastRate s.chan.trace) ∧
    (i = .readAddress ∨ i = .matchAddress ∨ i = .skipAddress ∨ (∃ f, i = .search f ∧ ¬(s.ssv = true ∧ s.disc = 0)) →
      s.chan.sends < t.chan.sends ∧
      lastRate t.chan.trace = some (if t.chan.sends = s.chan.sends + 1 then .slow else .fast)) ∧
    ((∃ f, i = .search f) → s.ssv = true → s.disc = 0 → lastRate t.chan.trace = lastRate s.chan.trace)

/-- Rules R54 and R105: for either order of the primitive flushes, each send of a command comes right after a rate
selection and one flush of each direction, in that order; and there is no other flush. -/
def Obligations.EverySendHasBothFlushes : Prop :=
  ∀ (o : FlushOrder) (i : Instr) (s t : State) (events : List Event), exec i s = .next t →
    t.chan.trace = s.chan.trace ++ events →
    (∀ before b after, events.flatMap (primitiveCalls o) = before ++ .sendByte b :: after →
      ∃ earlier r, before = earlier ++ .selectRate r :: primitiveCalls o .flush) ∧
    (events.flatMap (primitiveCalls o)).count .flushInput = t.chan.sends - s.chan.sends ∧
    (events.flatMap (primitiveCalls o)).count .flushOutput = t.chan.sends - s.chan.sends

/-- Rules R191 and R197: a command ends with `ChannelFailure` exactly when a channel call failed, and that call is its
last event. -/
def Obligations.ChannelFailureIsTheLastEvent : Prop :=
  ∀ (i : Instr) (s t : State) (events : List Event), exec i s = .next t →
    t.chan.trace = s.chan.trace ++ events →
    (statusCode t.status = 0x1 ↔ ∃ e ∈ events, failedEvent e = true) ∧
    (∀ before e after, events = before ++ e :: after → failedEvent e = true → after = [])

/-- Rule R10: two runs of a command with the same operand registers and the same answers of the channel have the same
trace and the same outcome, whatever `STATUS` and `DATA` held (rule R32). -/
def Obligations.AnswersDecideTheRun : Prop :=
  ∀ (i : Instr) (s u t : State),
    u.params = s.params → u.ssv = s.ssv → u.addr = s.addr → u.disc = s.disc → u.ldi = s.ldi → u.buf = s.buf →
    everyCallReturns s → everyCallReturns u →
    (∀ k, u.chan.sendAhead k = s.chan.sendAhead k) → (∀ k, u.chan.recvAhead k = s.chan.recvAhead k) →
    exec i s = .next t →
    ∃ t' events, exec i u = .next t' ∧
      t.chan.trace = s.chan.trace ++ events ∧ t'.chan.trace = u.chan.trace ++ events ∧
      t'.status = t.status ∧ t'.ssv = t.ssv ∧ t'.addr = t.addr ∧ t'.disc = t.disc ∧ t'.ldi = t.ldi ∧
      t'.buf = t.buf ∧ (t'.data = t.data ∨ (t.data = s.data ∧ t'.data = u.data))

/-- Rules R25, R32 and R196: every step keeps `STATUS` legal. -/
def Obligations.StepKeepsStatusLegal : Prop :=
  ∀ s t : State, statusLegal s → step s = .next t → statusLegal t

/-- The reset state has a legal `STATUS`. -/
def Obligations.ResetStatusIsLegal : Prop := statusLegal State.reset

/-- Rule R6 with rules R52 and R10: no step changes the parameters or the channel's inputs, and the history of the channel
only grows. -/
def Obligations.StepKeepsParametersAndHistory : Prop :=
  ∀ s t : State, step s = .next t →
    t.params = s.params ∧ t.chan.sendScript = s.chan.sendScript ∧ t.chan.recvScript = s.chan.recvScript ∧
    t.chan.hangAt = s.chan.hangAt ∧ s.chan.trace <+: t.chan.trace

/-! ## Registers and reset -/

/-- Rule R34: the values the spec gives for reset, and no event. `DATA` and `BUF` are not in this statement: the spec
leaves them unspecified. -/
def Obligations.ResetValues : Prop :=
  State.reset.ssv = false ∧ State.reset.addr = 0 ∧ State.reset.disc = 0 ∧ State.reset.ldi = 0 ∧
  State.reset.status = 0x00 ∧ State.reset.chan.trace = []

/-- Rules R34 and R222: a hardware reset of the block sets the Search State and `STATUS` and makes no channel event. That it
comes between two commands, and that the host's further inputs and the values it read survive it, is the model's choice
(log entries 5, 6 and 7). -/
def Obligations.HardwareResetLeavesTheChannel : Prop :=
  ∀ (s : State) (rest : List Input), s.pending = .hardwareReset :: rest →
    ∃ t, step s = .next t ∧ t.ssv = false ∧ t.addr = 0 ∧ t.disc = 0 ∧ t.ldi = 0 ∧ t.status = 0x00 ∧
      t.chan = s.chan ∧ t.params = s.params ∧ t.pending = rest ∧ t.reads = s.reads

/-- Rule R21, every offset of the window as the host reads it, byte by byte; a read changes no register. That one byte of
`CMD` (offsets 0x00 and 0x01) reads 0x00 is the model's deduction (log entry 15, DEDUCED) from the 16-bit read of 0x0000;
that the value goes to `reads` is its record (log entry 7). -/
def Obligations.WindowReads : Prop :=
  ∀ (s : State) (offset : BitVec 6) (rest : List Input) (v : Byte),
    s.pending = .window (.readByte offset) :: rest →
    (offset.toNat ∈ [0x00, 0x01, 0x06, 0x07] ∨ 0x21 ≤ offset.toNat → v = 0x00) →
    (offset.toNat = 0x02 → v = s.status) → (offset.toNat = 0x03 → v = s.data) →
    (offset.toNat = 0x04 → v.toNat = s.ldi.toNat) → (offset.toNat = 0x05 → v = if s.ssv then 0x01 else 0x00) →
    (∀ k < 8, offset.toNat = 0x08 + k → v = s.addr.extractLsb' (8 * k) 8) →
    (∀ k < 8, offset.toNat = 0x10 + k → v = s.disc.extractLsb' (8 * k) 8) →
    (∀ j : Fin 9, offset.toNat = 0x18 + j.val → v = s.buf[j]) →
    step s = .next { s with pending := rest, reads := s.reads ++ [v.setWidth 64] }

/-- Rules R21 and R28: a byte write at an offset of `CMD`, at `STATUS`, at `DATA` or at a reserved offset changes nothing. -/
def Obligations.WindowWritesIgnored : Prop :=
  ∀ (s : State) (offset : BitVec 6) (v : Byte) (rest : List Input),
    s.pending = .window (.writeByte offset v) :: rest →
    (offset.toNat ∈ [0x00, 0x01, 0x02, 0x03, 0x06, 0x07] ∨ 0x21 ≤ offset.toNat) →
    step s = .next { s with pending := rest }

/-- Rules R21 and R61, the writable offsets: the byte is stored in its lane, bits that are not used are dropped, and
nothing else changes. -/
def Obligations.WindowWritesStored : Prop :=
  ∀ (s : State) (offset : BitVec 6) (v : Byte) (rest : List Input),
    s.pending = .window (.writeByte offset v) :: rest →
    (offset.toNat = 0x04 → step s = .next { s with pending := rest, ldi := v.extractLsb' 0 6 }) ∧
    (offset.toNat = 0x05 → step s = .next { s with pending := rest, ssv := v.getLsbD 0 }) ∧
    (∀ k < 8, offset.toNat = 0x08 + k → ∃ a : Word64, step s = .next { s with pending := rest, addr := a } ∧
      ∀ i < 64, a.getLsbD i = if i / 8 = k then v.getLsbD (i % 8) else s.addr.getLsbD i) ∧
    (∀ k < 8, offset.toNat = 0x10 + k → ∃ d : Word64, step s = .next { s with pending := rest, disc := d } ∧
      ∀ i < 64, d.getLsbD i = if i / 8 = k then v.getLsbD (i % 8) else s.disc.getLsbD i) ∧
    (∀ j : Fin 9, offset.toNat = 0x18 + j.val →
      step s = .next { s with pending := rest, buf := s.buf.set j.val v j.isLt })

/-- Rules R21 and R63, the whole accesses: `CMD` reads 0x0000, `ADDR` and `DISC` read and are written whole. -/
def Obligations.WindowWholeAccesses : Prop :=
  ∀ (s : State) (rest : List Input) (v : Word64),
    (s.pending = .window .readCommand :: rest →
      step s = .next { s with pending := rest, reads := s.reads ++ [0x0000] }) ∧
    (s.pending = .window (.readWide .addr) :: rest →
      step s = .next { s with pending := rest, reads := s.reads ++ [s.addr] }) ∧
    (s.pending = .window (.readWide .disc) :: rest →
      step s = .next { s with pending := rest, reads := s.reads ++ [s.disc] }) ∧
    (s.pending = .window (.writeWide .addr v) :: rest → step s = .next { s with pending := rest, addr := v }) ∧
    (s.pending = .window (.writeWide .disc v) :: rest → step s = .next { s with pending := rest, disc := v })

/-- Rule R63: `ADDR` and `DISC` may be written byte by byte, in any order, with the effect of one whole write. -/
def Obligations.ByteWritesMakeTheWholeWrite : Prop :=
  ∀ (s : State) (v : Word64) (lanes : List Nat), lanes.Perm (List.range 8) →
    lanes.foldl (fun t k => accessWindow (.writeByte (BitVec.ofNat 6 (0x08 + k)) (v.extractLsb' (8 * k) 8)) t) s =
      accessWindow (.writeWide .addr v) s ∧
    lanes.foldl (fun t k => accessWindow (.writeByte (BitVec.ofNat 6 (0x10 + k)) (v.extractLsb' (8 * k) 8)) t) s =
      accessWindow (.writeWide .disc v) s

/-- Rules R5 and R209, the block between commands. That a step with an empty queue is an idle one, which answers the
unchanged state, is the model's choice (log entry 6, DESIGN CHOICE). -/
def Obligations.IdleBlockHoldsItsState : Prop :=
  ∀ s : State, s.pending = [] → step s = .next s

/-! ## Host software (outside the block) -/

/-- Rules R174 and R175: the value of the decode, in thousandths of a degree: the magnitude, complemented and negated where
the MSB byte exceeds `NEG_THRESHOLD`, and the fraction, always below 100, as hundredths; its range; the value in any
number format, rounded as rule R174 says (log entry 13), which the exact format leaves exact; and the sign of a
floating-point value, which is negative exactly when the MSB byte exceeds `NEG_THRESHOLD`, so that a complemented magnitude
of 0 without a fraction gives negative zero (rule R175 item iv), where the exact value is 0. -/
def Obligations.CelsiusValue : Prop :=
  ∀ (p : Params) (lsb msb : Byte),
    let high : Int := lsb.toNat / 16 + 16 * (msb.toNat % 8)
    let hundredths : Int := 6 * (lsb.toNat % 16)
    let value : Int :=
      if p.negThreshold.toNat < msb.toNat then -((127 - high) * 1000 + hundredths * 10) else high * 1000 + hundredths * 10
    hundredths < 100 ∧ decodeCelsius p lsb msb = value ∧ -127900 ≤ value ∧ value ≤ 127900 ∧
    decodeCelsiusIn exactFormat p lsb msb = (value : Rat) / 1000 ∧
    (∀ format : FloatFormat, decodeCelsiusIn format p lsb msb =
      if p.negThreshold.toNat < msb.toNat then
        format.neg (format.ofRat (((127 - high : Int) : Rat) + format.toRat (format.ofRat ((hundredths : Rat) / 100))))
      else format.ofRat ((high : Rat) + format.toRat (format.ofRat ((hundredths : Rat) / 100)))) ∧
    (∀ round : Rat → Rat, (∀ q, 0 ≤ q → 0 ≤ round q) →
      ∃ magnitude, decodeCelsiusIn (floatingFormat round) p lsb msb =
        SignedValue.mk (decide (p.negThreshold.toNat < msb.toNat)) magnitude) ∧
    (∀ round : Rat → Rat, round 0 = 0 → p.negThreshold.toNat < msb.toNat → high = 127 → hundredths = 0 →
      value = 0 ∧ decodeCelsiusIn (floatingFormat round) p lsb msb = SignedValue.mk true 0)

/-- Rule R171 without a target, on a bus with presence and no failing send: the skip, then the start-conversion command;
52 events. -/
def Obligations.BroadcastMeasurementSequence : Prop :=
  ∀ (s : State) (presence : Byte), everyCallReturns s → sendsSucceed s.chan 17 →
    s.chan.recvAhead 0 = some presence → presence ≠ s.params.resetPattern →
    ∃ t, startMeasurement none s = .ok () t ∧
      t = { s with
        status := 0x00,
        chan := s.chan.advance 17 1
          (resetSlot s.params (some presence) ++
            writeSlots s.params 8 (fun j => s.params.cmdSkipAddress.getLsbD j) ++
            writeSlots s.params 8 (fun j => s.params.cmdConvert.getLsbD j)) }

/-- Rules R177 and R178, for every reader and every style (what the rules leave open, log entry 9). Formatting an address and
parsing it back gives the address, where the reader has the style's byte order and takes its letters. A shorter text is
rejected. A text of eight digit pairs with a separator between each gives the address of its digits, high digit first, where
the reader takes its letters and its separators, and a parse failure where not; any other text is the reader's. -/
def Obligations.AddressTextRoundTrip : Prop :=
  (∀ (reader : TextReader) (style : TextStyle) (a : Word64),
    (formatAddress style a).length = 23 ∧
    (reader.familyFirst = style.familyFirst →
      reader.letterCase = .both ∨ reader.letterCase = (if style.upperCase then .upper else .lower) →
      parseAddress reader (formatAddress style a) = .address a)) ∧
  (∀ (reader : TextReader) (text : List Char), text.length < 23 → parseAddress reader text = .failure) ∧
  (∀ (reader : TextReader) (text : List Char) (digit : Nat → BitVec 4), text.length = 23 →
    (∀ k < 16, hexValue (text.getD (3 * (k / 2) + k % 2) ' ') = some (digit k)) →
    (∀ j < 7, text.getD (3 * j + 2) ' ' = ':' ∨ text.getD (3 * j + 2) ' ' = '-') →
    (textAllowed reader text = true → ∃ a, parseAddress reader text = .address a ∧
      ∀ j < 8, a.extractLsb' (8 * if reader.familyFirst then j else 7 - j) 8 = digit (2 * j) ++ digit (2 * j + 1)) ∧
    (textAllowed reader text = false → parseAddress reader text = .failure)) ∧
  (∀ (reader : TextReader) (text : List Char),
    23 < text.length ∨
      (text.length = 23 ∧ ((∃ k < 16, hexValue (text.getD (3 * (k / 2) + k % 2) ' ') = none) ∨
        ∃ j < 7, text.getD (3 * j + 2) ' ' ≠ ':' ∧ text.getD (3 * j + 2) ' ' ≠ '-')) →
    parseAddress reader text = reader.otherwise text)
end

