-- ==== Sys2Proof/Tests/Slice0.lean ====
section
/-!
SUPPORT. The model's own tests: the checks of WellFormed, words written out from the tables of file 30, and vectors of file
95 (T, K, M, S and section 2.6), each on one step; and, for every statement with hypotheses, states that meet them.
-/


namespace Sys2Proof.Machine.Tests

-- The tests are checked one after another: each kernel evaluation started beside the others takes a thread of its own.
set_option Elab.async false

/-- The reset state with a channel that gives these answers. -/
def scripted (sends : List Bool) (recvs : List (Option Byte)) : State :=
  { State.reset with chan := { Channel.atReset with sendScript := sends, recvScript := recvs } }

/-- Up to 201 sends answered `ok`, in a form the kernel reads fast. -/
def oks (n : Nat) : List Bool :=
  [true, true, true, true, true, true, true, true, true, true, true, true, true, true, true, true, true, true, true, true, true, true, true, true, true,
   true, true, true, true, true, true, true, true, true, true, true, true, true, true, true, true, true, true, true, true, true, true, true, true, true,
   true, true, true, true, true, true, true, true, true, true, true, true, true, true, true, true, true, true, true, true, true, true, true, true, true,
   true, true, true, true, true, true, true, true, true, true, true, true, true, true, true, true, true, true, true, true, true, true, true, true, true,
   true, true, true, true, true, true, true, true, true, true, true, true, true, true, true, true, true, true, true, true, true, true, true, true, true,
   true, true, true, true, true, true, true, true, true, true, true, true, true, true, true, true, true, true, true, true, true, true, true, true, true,
   true, true, true, true, true, true, true, true, true, true, true, true, true, true, true, true, true, true, true, true, true, true, true, true, true,
   true, true, true, true, true, true, true, true, true, true, true, true, true, true, true, true, true, true, true, true, true, true, true, true, true,
   true].take n

/-- Echoes 0xFF for the 1 bits and 0x00 for the 0 bits of a word, from bit 0, as the reference bus sends them. -/
def bitEchoes {w : Nat} (v : BitVec w) : List (Option Byte) :=
  (List.range w).map fun i => some (if v.getLsbD i then 0xFF else 0x00)

/-- The echoes of the reference bus (file 95 section 0) in a walk to `a`. -/
def walkEchoes (ds : List Word64) (a : Word64) : List (Option Byte) :=
  (List.range 64).flatMap fun i =>
    [some (if (lineBits ds a i).1 then 0xFF else 0x00), some (if (lineBits ds a i).2 then 0xFF else 0x00)]

/-- A bus of devices about to be searched along the path to `a`. -/
def searched (ds : List Word64) (a : Word64) : State := scripted (oks 201) (some 0xE0 :: walkEchoes ds a)

/-- A check of the next state, `false` where there is none. -/
def nextIs (o : Host.Outcome State Fault Refusal) (f : State → Bool) : Bool :=
  match o with
  | .next t => f t
  | .fault _ => false
  | .refused _ => false

/-- `BUF` holding the bytes of a list. -/
def withBuf (l : List Byte) (s : State) : State := hostWriteBuf 0 l s

/-! WellFormed. -/

theorem test_wellFormed_refuses_crcCompute_10 : Instr.wellFormed (.crcCompute 10) = false := by decide
theorem test_wellFormed_refuses_crcVerify_15 : Instr.wellFormed (.crcVerify 15) = false := by decide
theorem test_wellFormed_accepts_length_9 : Instr.wellFormed (.crcVerify 9) = true := by decide

/-! Words of rule R83, written out bit by bit. -/

theorem test_decode_reset : decode 0b0000000100000000#16 = .ok .reset := by decide
theorem test_decode_writeBit : decode 0b0000001000000001#16 = .ok (.writeBit true) := by decide
theorem test_decode_readBit : decode 0b0000001100000000#16 = .ok .readBit := by decide
theorem test_decode_writeByte : decode 0b0000010011001100#16 = .ok (.writeByte 0xCC) := by decide
theorem test_decode_readByte : decode 0b0000010100000000#16 = .ok .readByte := by decide
theorem test_decode_crcCompute : decode 0b0001000000000111#16 = .ok (.crcCompute 7) := by decide
theorem test_decode_crcVerify : decode 0b0001000100001001#16 = .ok (.crcVerify 9) := by decide
theorem test_decode_readAddress : decode 0b0010000000000000#16 = .ok .readAddress := by decide
theorem test_decode_matchAddress : decode 0b0010000100000000#16 = .ok .matchAddress := by decide
theorem test_decode_skipAddress : decode 0b0010001000000000#16 = .ok .skipAddress := by decide
theorem test_decode_search : decode 0b0011000000000001#16 = .ok (.search true) := by decide

/-- The illegal words of file 95 section 2.5. -/
theorem test_decode_illegal :
    decode 0x0000#16 = .error .noSuchOpcode ∧ decode 0x0101#16 = .error .mustBeZero ∧
    decode 0x0202#16 = .error .mustBeZero ∧ decode 0x0600#16 = .error .noSuchOpcode ∧
    decode 0x100A#16 = .error .lengthAboveNine ∧ decode 0x1010#16 = .error .mustBeZero ∧
    decode 0x2300#16 = .error .noSuchOpcode ∧ decode 0x30FF#16 = .error .mustBeZero ∧
    decode 0xFFFF#16 = .error .noSuchOpcode := by decide

/-- One byte of `CMD` alone is no command word (rule R28). -/
theorem test_decodeBytes_one_byte : decodeBytes [0x01#8] = .error .notAWord := by decide

/-- No word selects two rows: where two rows' masks overlap, their patterns differ (rule R83). -/
theorem test_rows_disjoint :
    opcodeRows.Pairwise fun r q => r.pattern &&& q.mask ≠ q.pattern &&& r.mask := by decide

theorem test_decodeTableWord_search : decodeTableWord 16 0x3000 = some (.search false) := by decide +kernel

/-! Family 0. -/

/-- T1 and T5. -/
theorem test_reset_present :
    nextIs (exec .reset (scripted [true] [some 0xE0])) (fun t =>
      t.status == 0x10 && t.chan.trace == [.rate .slow, .flush, .send 0xF0 true, .recv (some 0xE0)]) = true := by
  decide +kernel
theorem test_reset_send_fails :
    nextIs (exec .reset (scripted [false] [])) (fun t =>
      t.status == 0x01 && t.chan.trace == [.rate .slow, .flush, .send 0xF0 false]) = true := by decide +kernel

/-- T6 and T8. -/
theorem test_writeBit_0 :
    nextIs (exec (.writeBit false) (scripted [true] [])) (fun t =>
      t.status == 0x00 && t.chan.trace == [.rate .fast, .flush, .send 0x00 true]) = true := by decide +kernel
theorem test_writeBit_1_send_fails :
    nextIs (exec (.writeBit true) (scripted [false] [])) (fun t =>
      t.status == 0x01 && t.chan.trace == [.rate .fast, .flush, .send 0xFF false]) = true := by decide +kernel

/-- T9 and T10. -/
theorem test_readBit_1 :
    nextIs (exec .readBit (scripted [true] [some 0xFF])) (fun t => t.data == 0x01 && t.status == 0x00) = true := by
  decide +kernel
theorem test_readBit_threshold :
    nextIs (exec .readBit (scripted [true] [some 0xFE])) (fun t => t.data == 0x00 && t.status == 0x00) = true := by
  decide +kernel

/-- T18 and T19. -/
theorem test_writeByte_lsb_first :
    nextIs (exec (.writeByte 0x01) (scripted (oks 8) [])) (fun t =>
      t.status == 0x00 &&
      t.chan.trace == writeSlots defaultParams 8 (fun i => [true, false, false, false, false, false, false, false].getD i false)) =
      true := by decide +kernel
theorem test_writeByte_fifth_send_fails :
    nextIs (exec (.writeByte 0x44) (scripted (oks 4 ++ [false]) [])) (fun t =>
      t.status == 0x01 && t.chan.trace.length == 15) = true := by decide +kernel

/-- T20 and T24. -/
theorem test_readByte_AD :
    nextIs (exec .readByte (scripted (oks 8)
      [some 0xFF, some 0xFE, some 0xFF, some 0xFF, some 0x00, some 0xFF, some 0xFC, some 0xFF])) (fun t =>
      t.data == 0xAD && t.status == 0x00 && t.chan.trace.length == 32) = true := by decide +kernel
theorem test_readByte_echo_missing :
    nextIs (exec .readByte ((scripted (oks 8) [some 0xFF, some 0xFF, some 0xFF, none]).setData 0x5A)) (fun t =>
      t.data == 0x5A && t.status == 0x01 && t.chan.trace.length == 16) = true := by decide +kernel

/-! Family 1. -/

/-- K1 and K2. -/
theorem test_crcCompute_7 :
    nextIs (exec (.crcCompute 7) (withBuf [0x02, 0x1C, 0xB8, 0x01, 0x00, 0x00, 0x00, 0x55] State.reset)) (fun t =>
      t.data == 0xA2 && t.status == 0x00 && t.chan.trace == []) = true := by decide +kernel
theorem test_crcCompute_9 :
    nextIs (exec (.crcCompute 9) (withBuf [0x31, 0x32, 0x33, 0x34, 0x35, 0x36, 0x37, 0x38, 0x39] State.reset)) (fun t =>
      t.data == 0xA1) = true := by decide +kernel

/-- K5 and K11. -/
theorem test_crcVerify_8_fails :
    nextIs (exec (.crcVerify 8) (withBuf [0x02, 0x1C, 0xB8, 0x01, 0x00, 0x00, 0x00, 0xA3] State.reset)) (fun t =>
      t.status == 0x00) = true := by decide +kernel
theorem test_crcVerify_9_passes :
    nextIs (exec (.crcVerify 9) (withBuf [0x50, 0x05, 0x4B, 0x46, 0x7F, 0xFF, 0x0C, 0x10, 0x1C] State.reset)) (fun t =>
      t.status == 0x10) = true := by decide +kernel

/-! Family 2. -/

/-- M1 and M3. -/
theorem test_readAddress_M1 :
    nextIs (exec .readAddress (scripted (oks 73) (some 0xE0 :: bitEchoes 0x78041692464BFF28#64))) (fun t =>
      t.addr == 0x78041692464BFF28 && t.status == 0x00 && t.chan.trace.length == 284) = true := by decide +kernel
theorem test_readAddress_M3 :
    nextIs (exec .readAddress (scripted [true] [none])) (fun t => t.status == 0x01) = true := by decide +kernel

/-- M6: the third byte, 0x4B, goes out as 1 1 0 1 0 0 1 0. -/
theorem test_matchAddress_M6 :
    nextIs (exec .matchAddress ((scripted (oks 73) [some 0xE0]).setAddr 0x78041692464BFF28)) (fun t =>
      t.status == 0x00 && t.chan.trace.length == 220 &&
      ((t.chan.trace.drop (4 + 24 + 48)).take 24 ==
        writeSlots defaultParams 8 (fun i => [true, true, false, true, false, false, true, false].getD i false))) = true := by
  decide +kernel
/-- M7. -/
theorem test_matchAddress_M7 :
    nextIs (exec .matchAddress (scripted [true] [some 0xF0])) (fun t =>
      t.status == 0x02 && t.chan.trace.length == 4) = true := by decide +kernel

/-- M8 and M10. -/
theorem test_skipAddress_M8 :
    nextIs (exec .skipAddress (scripted (oks 9) [some 0xE0])) (fun t =>
      t.status == 0x00 && t.chan.trace.length == 28) = true := by decide +kernel
theorem test_skipAddress_M10 :
    nextIs (exec .skipAddress (scripted (oks 3 ++ [false]) [some 0xE0])) (fun t =>
      t.status == 0x01 && t.chan.trace.length == 13) = true := by decide +kernel

/-! Family 3. -/

/-- S1 call 1. -/
theorem test_search_S1_call1 :
    nextIs (exec (.search false) (searched [0xA766554433221120, 0x5666554433221128] 0xA766554433221120)) (fun t =>
      t.addr == 0xA766554433221120 && t.disc == 0x8 && t.ldi == 3 && t.ssv && t.status == 0x10 &&
      t.chan.trace.length == 732) = true := by decide +kernel

/-- S4 call 3: the forced branch at position 0 and a discrepancy after it. -/
theorem test_search_S4_call3 :
    nextIs (exec (.search false)
      ((searched [0xFB00000000000010, 0xC600000000000011, 0x8100000000000012, 0xBC00000000000013]
        0xC600000000000011).setSearchState 0x8100000000000012 0x1 0)) (fun t =>
      t.addr == 0xC600000000000011 && t.disc == 0x2 && t.ldi == 1 && t.status == 0x10) = true := by decide +kernel

/-! The window, the reset input, a hang, the host software. -/

/-- Section 2.6: the window after S1 call 1. -/
theorem test_window_after_S1 :
    ([0x02, 0x04, 0x05, 0x06, 0x08, 0x0F, 0x10, 0x11, 0x21, 0x3F] : List (BitVec 6)).map
      (windowByte ((State.reset.setSearchState 0xA766554433221120 0x8 3).setStatus 0x10)) =
    [0x10, 0x03, 0x01, 0x00, 0x20, 0xA7, 0x08, 0x00, 0x00, 0x00] := by decide +kernel

/-- Bits 7:6 of `LDI` and writes to `STATUS` are dropped (rule R21). -/
theorem test_window_drops_bits :
    (writeWindowByte (writeWindowByte State.reset 0x04 0xC5) 0x02 0xFF).ldi = 5 ∧
    writeWindowByte State.reset 0x02 0xFF = State.reset ∧ writeWindowByte State.reset 0x00 0x01 = State.reset := by
  decide +kernel

/-- Rule R50: the window is 64 offsets from `REG_BASE` on. -/
theorem test_windowOffset :
    windowOffset 0x4000 0x4003 = some 0x03 ∧ windowOffset 0x4000 0x403F = some 0x3F ∧
    windowOffset 0x4000 0x4040 = none ∧ windowOffset 0x4000 0x3FFF = none := by decide

/-- A hardware reset makes no event and keeps the host's next access (rule R222). -/
theorem test_hardwareReset :
    nextIs (step { (State.reset.setSearchState 5 5 5) with pending := [.hardwareReset, .command 0x0100] }) (fun t =>
      !t.ssv && t.addr == 0 && t.chan == Channel.atReset && t.pending == [.command 0x0100]) = true := by decide +kernel

/-- A send that never returns hangs the command (rule R72). -/
theorem test_hang :
    exec (.writeByte 0x00) { State.reset with
      chan := { Channel.atReset with sendScript := oks 8, hangAt := some 7 } } = .fault .channelHang := rfl

/-- The first instruction after reset is the placed one. -/
theorem test_withFetchWord :
    step (State.reset.withFetchWord 16 0x1000) = exec (.crcCompute 0) State.reset := rfl

/-- E3, E4 and rows of section 2.7, in thousandths. -/
theorem test_decodeCelsius :
    [decodeCelsius defaultParams 0x50 0x00, decodeCelsius defaultParams 0x50 0xFF,
      decodeCelsius defaultParams 0xFF 0x07, decodeCelsius defaultParams 0x58 0xFF,
      decodeCelsius defaultParams 0x00 0x80] = [5000, -10000, 127900, -10480, 0] := by decide +kernel

/-- The decode in a floating-point format that rounds nothing here. -/
def floatingCelsius (lsb msb : Byte) : SignedValue := decodeCelsiusIn (floatingFormat id) defaultParams lsb msb

/-- Rule R175 item iv: raw [0xF0, 0xFF] is exactly 0, and negative zero in a floating-point format; [0x00, 0x00] is
positive zero there. -/
theorem test_decodeCelsius_negative_zero :
    decodeCelsius defaultParams 0xF0 0xFF = 0 ∧
    floatingCelsius 0xF0 0xFF = ⟨true, 0⟩ ∧ floatingCelsius 0x00 0x00 = ⟨false, 0⟩ := by decide +kernel

/-- Family code first, with the letters of one case and one separator, or with either of each. -/
def strictReader : TextReader := ⟨true, .upper, false, fun _ => .failure⟩
def lenientReader : TextReader := ⟨true, .both, true, fun _ => .failure⟩

/-- E2. -/
theorem test_addressText :
    parseAddress strictReader "28:FF:4B:46:92:16:04:78".toList = .address 0x78041692464BFF28 ∧
    parseAddress strictReader "28:FF:4B:46:92:16:04:7".toList = .failure := by decide +kernel

/-- What rule R177 leaves open is the reader's. -/
theorem test_addressText_open :
    parseAddress strictReader "28:ff:4b:46:92:16:04:78".toList = .failure ∧
    parseAddress strictReader "28-FF:4B:46:92:16:04:78".toList = .failure ∧
    parseAddress lenientReader "28-ff:4B:46:92:16:04:78".toList = .address 0x78041692464BFF28 := by decide +kernel

/-! States that meet the hypotheses of the statements, one theorem per statement. -/

theorem next_of_nextIs {o : Host.Outcome State Fault Refusal} {f : State → Bool} (h : nextIs o f = true) :
    ∃ t, o = .next t ∧ f t = true := by
  cases o with
  | next t => exact ⟨t, rfl, h⟩
  | fault r => simp [nextIs] at h
  | refused r => simp [nextIs] at h

/-- A line stuck low (S11): every send succeeds and every echo is 0x00. -/
def stuckLow : State :=
  scripted (oks 201)
  [some 0x00, some 0x00, some 0x00, some 0x00, some 0x00, some 0x00, some 0x00, some 0x00, some 0x00, some 0x00, some 0x00, some 0x00,
   some 0x00, some 0x00, some 0x00, some 0x00, some 0x00, some 0x00, some 0x00, some 0x00, some 0x00, some 0x00, some 0x00, some 0x00,
   some 0x00, some 0x00, some 0x00, some 0x00, some 0x00, some 0x00, some 0x00, some 0x00, some 0x00, some 0x00, some 0x00, some 0x00,
   some 0x00, some 0x00, some 0x00, some 0x00, some 0x00, some 0x00, some 0x00, some 0x00, some 0x00, some 0x00, some 0x00, some 0x00,
   some 0x00, some 0x00, some 0x00, some 0x00, some 0x00, some 0x00, some 0x00, some 0x00, some 0x00, some 0x00, some 0x00, some 0x00,
   some 0x00, some 0x00, some 0x00, some 0x00, some 0x00, some 0x00, some 0x00, some 0x00, some 0x00, some 0x00, some 0x00, some 0x00,
   some 0x00, some 0x00, some 0x00, some 0x00, some 0x00, some 0x00, some 0x00, some 0x00, some 0x00, some 0x00, some 0x00, some 0x00,
   some 0x00, some 0x00, some 0x00, some 0x00, some 0x00, some 0x00, some 0x00, some 0x00, some 0x00, some 0x00, some 0x00, some 0x00,
   some 0x00, some 0x00, some 0x00, some 0x00, some 0x00, some 0x00, some 0x00, some 0x00, some 0x00, some 0x00, some 0x00, some 0x00,
   some 0x00, some 0x00, some 0x00, some 0x00, some 0x00, some 0x00, some 0x00, some 0x00, some 0x00, some 0x00, some 0x00, some 0x00,
   some 0x00, some 0x00, some 0x00, some 0x00, some 0x00, some 0x00, some 0x00, some 0x00, some 0x00]

/-- Presence, then every echo 0xFF (S9), for the first position. -/
def nobodyThere : State := scripted (oks 11) [some 0xE0, some 0xFF, some 0xFF]

/-- The reset state with one input pending. -/
def about (a : Input) : State := State.reset.setPending [a]

/-- The devices A and B of S1. -/
def deviceA : Word64 := 0xA766554433221120
def deviceB : Word64 := 0x5666554433221128

theorem witness_StepRunsTheDecodedCommand :
    (about (.command 0x0100)).pending = [.command 0x0100] ∧ decode 0x0100 = .ok .reset := by decide

theorem witness_IllegalWordsWriteStatusOnly :
    (about (.command 0x0202)).pending = [.command 0x0202] ∧ decode 0x0202 = .error .mustBeZero := by decide

theorem witness_DecodeOfEncode : Instr.wellFormed (.crcVerify 9) = true := by decide

theorem witness_EncodeOfDecode : decode 0x1009 = .ok (.crcCompute 9) := by decide

theorem witness_ResetReportsPresence :
    everyCallReturns (scripted [false] []) ∧ (scripted [false] []).chan.sendAhead 0 = false ∧
    (scripted [true] [none]).chan.sendAhead 0 = true ∧ (scripted [true] [none]).chan.recvAhead 0 = none ∧
    (scripted [true] [some 0xE0]).chan.recvAhead 0 = some 0xE0 ∧
    (scripted [true] [some 0xF0]).chan.recvAhead 0 = some 0xF0 := by decide

theorem witness_WriteBitSendsOneSlot : everyCallReturns (scripted [true] []) := by decide

theorem witness_ReadBitThresholdsTheEcho :
    everyCallReturns (scripted [true] [some 0xFE]) ∧ (scripted [true] [some 0xFE]).chan.sendAhead 0 = true ∧
    (scripted [true] [some 0xFE]).chan.recvAhead 0 = some 0xFE ∧
    (scripted [false] []).chan.sendAhead 0 = false ∧ (scripted [true] [none]).chan.recvAhead 0 = none := by decide

theorem witness_WriteByteSendsEightSlotsLsbFirst :
    everyCallReturns (scripted (oks 8) []) ∧ sendsSucceed (scripted (oks 8) []).chan 8 ∧
    (sendsSucceed (scripted [false] []).chan 0 ∧ (scripted [false] []).chan.sendAhead 0 = false) ∧
    (sendsSucceed (scripted (oks 7 ++ [false]) []).chan 7 ∧
      (scripted (oks 7 ++ [false]) []).chan.sendAhead 7 = false) := by decide +kernel

theorem witness_ReadByteAssemblesLsbFirst :
    everyCallReturns stuckLow ∧ sendsSucceed stuckLow.chan 8 ∧ echoesAre stuckLow.chan 8 (fun _ => 0x00) ∧
    (∀ i < 8, (0x00 : Byte).getLsbD i = echoBit stuckLow.params 0x00) ∧
    ((scripted (oks 7 ++ [false]) stuckLow.chan.recvScript).chan.sendAhead 7 = false ∧
      sendsSucceed (scripted (oks 7 ++ [false]) stuckLow.chan.recvScript).chan 7 ∧
      echoesAre (scripted (oks 7 ++ [false]) stuckLow.chan.recvScript).chan 7 (fun _ => 0x00)) ∧
    (sendsSucceed (scripted (oks 1) [none]).chan 1 ∧ (scripted (oks 1) [none]).chan.recvAhead 0 = none) := by
  decide +kernel

theorem witness_CrcComputeLeavesTheChecksum : (9 : BitVec 4).toNat ≤ 9 ∧ (0 : BitVec 4).toNat ≤ 9 := by decide

theorem witness_CrcVerifyComparesTheLastByte :
    (0 : BitVec 4).toNat ≤ 9 ∧ State.reset.buf.toList.take (0 : BitVec 4).toNat = [] ∧
    State.reset.buf.toList.take (1 : BitVec 4).toNat = [] ++ [0x00] ∧
    State.reset.buf.toList.take (9 : BitVec 4).toNat = [0, 0, 0, 0, 0, 0, 0, 0] ++ [0x00] := by decide +kernel

theorem witness_VerifyMeansChecksumZero : ([0x00] : List Byte) ≠ [] := by decide

theorem witness_SingleBitFlipFails :
    verify ([0x02, 0x1C, 0xB8, 0x01, 0x00, 0x00, 0x00] ++ (0xA2 : Byte) :: []) = true ∧
    verify ([] ++ (0x02 : Byte) :: [0x1C, 0xB8, 0x01, 0x00, 0x00, 0x00, 0xA2]) = true := by decide +kernel

theorem witness_ChecksumIsLinear : ([0x01, 0x02] : List Byte).length = ([0x80, 0xFF] : List Byte).length := by decide

/-- The head of each addressing command: no presence, a failed send, no echo. -/
theorem witness_addressing_heads :
    everyCallReturns (scripted [true] [some 0xF0]) ∧
    (scripted [true] [some 0xF0]).chan.sendAhead 0 = true ∧
    (scripted [true] [some 0xF0]).chan.recvAhead 0 = some (scripted [true] [some 0xF0]).params.resetPattern ∧
    (scripted [false] []).chan.sendAhead 0 = false ∧
    (scripted [true] [none]).chan.sendAhead 0 = true ∧ (scripted [true] [none]).chan.recvAhead 0 = none := by decide

theorem witness_AddressingNeedsPresence :
    Instr.readAddress ∈ [Instr.readAddress, .matchAddress, .skipAddress] ∧ everyCallReturns (scripted [true] [some 0xF0]) ∧
    (scripted [true] [some 0xF0]).chan.recvAhead 0 = some (scripted [true] [some 0xF0]).params.resetPattern := by decide

theorem witness_AddressingResetChannelFailure :
    Instr.skipAddress ∈ [Instr.readAddress, .matchAddress, .skipAddress] ∧ everyCallReturns (scripted [true] [none]) ∧
    (scripted [true] [none]).chan.sendAhead 0 = true ∧ (scripted [true] [none]).chan.recvAhead 0 = none ∧
    (scripted [false] []).chan.sendAhead 0 = false := by decide

theorem witness_ReadAddressAssemblesTheAddress :
    everyCallReturns stuckLow ∧ stuckLow.chan.recvAhead 0 = some 0x00 ∧ (0x00 : Byte) ≠ stuckLow.params.resetPattern ∧
    sendsSucceed stuckLow.chan 73 ∧ (∀ k < 64, stuckLow.chan.recvAhead (k + 1) = some 0x00) ∧
    (∀ k < 64, (0 : Word64).getLsbD k = echoBit stuckLow.params 0x00) := by decide +kernel

/-- Its failing paths: the last write slot, the first read slot's send, the first read slot's echo. -/
theorem witness_ReadAddress_failures :
    (sendsSucceed (scripted (oks 8 ++ [false]) [some 0xE0]).chan 8 ∧
      (scripted (oks 8 ++ [false]) [some 0xE0]).chan.sendAhead 8 = false) ∧
    (sendsSucceed (scripted (oks 9 ++ [false]) [some 0xE0]).chan 9 ∧
      (scripted (oks 9 ++ [false]) [some 0xE0]).chan.sendAhead 9 = false) ∧
    (sendsSucceed (scripted (oks 10) [some 0xE0, none]).chan 10 ∧
      (scripted (oks 10) [some 0xE0, none]).chan.recvAhead 1 = none) := by decide +kernel

theorem witness_MatchAddressSendsTheAddress :
    everyCallReturns stuckLow ∧ stuckLow.chan.recvAhead 0 = some 0x00 ∧ (0x00 : Byte) ≠ stuckLow.params.resetPattern ∧
    sendsSucceed stuckLow.chan 73 ∧
    (sendsSucceed (scripted (oks 72 ++ [false]) [some 0xE0]).chan 72 ∧
      (scripted (oks 72 ++ [false]) [some 0xE0]).chan.sendAhead 72 = false) := by decide +kernel

theorem witness_SkipAddressSendsTheCommand :
    everyCallReturns stuckLow ∧ stuckLow.chan.recvAhead 0 = some 0x00 ∧ (0x00 : Byte) ≠ stuckLow.params.resetPattern ∧
    sendsSucceed stuckLow.chan 9 ∧
    (sendsSucceed (scripted (oks 1 ++ [false]) [some 0xE0]).chan 1 ∧
      (scripted (oks 1 ++ [false]) [some 0xE0]).chan.sendAhead 1 = false) := by decide +kernel

/-- S13 and S14. -/
theorem witness_SearchExhaustedTouchesNoBus :
    ((State.reset.setSearchState 0x1234 0 17).ssv = true ∧ (State.reset.setSearchState 0x1234 0 17).disc = 0) ∧
    ((State.reset.setDisc 0xFFFF).ssv = false ∧ everyCallReturns (State.reset.setDisc 0xFFFF)) := by decide

theorem witness_SearchResetOutcomes :
    everyCallReturns (scripted [true] [some 0xF0]) ∧
    ¬((scripted [true] [some 0xF0]).ssv = true ∧ (scripted [true] [some 0xF0]).disc = 0) ∧
    (scripted [true] [some 0xF0]).chan.sendAhead 0 = true ∧
    (scripted [true] [some 0xF0]).chan.recvAhead 0 = some (scripted [true] [some 0xF0]).params.resetPattern ∧
    (scripted [false] []).chan.sendAhead 0 = false ∧ (scripted [true] [none]).chan.recvAhead 0 = none := by decide

/-- S11, both calls: from the empty state the walk passes the check; resumed at position 63 it fails it. -/
theorem witness_SearchWalkResult_passes :
    everyCallReturns stuckLow ∧ ¬(stuckLow.ssv = true ∧ stuckLow.disc = 0) ∧ sendsSucceed stuckLow.chan 201 ∧
    stuckLow.chan.recvAhead 0 = some 0x00 ∧ (0x00 : Byte) ≠ stuckLow.params.resetPattern ∧
    (∀ k < 128, stuckLow.chan.recvAhead (k + 1) = some 0x00) ∧
    (∀ i < 64, searchGoesOn stuckLow (fun _ => 0x00) i = true) ∧
    (∀ i < 64, (0 : Word64).getLsbD i = searchBit stuckLow (fun _ => 0x00) i) ∧
    (∀ i < 64, (0xFFFFFFFFFFFFFFFF : Word64).getLsbD i = searchMask stuckLow (fun _ => 0x00) i) ∧
    verify (addressBytes 0) = true := by decide +kernel

/-- The state of S11 before its second call. -/
def stuckLowResumed : State := stuckLow.setSearchState 0 0xFFFFFFFFFFFFFFFF 63

theorem witness_SearchWalkResult_fails :
    everyCallReturns stuckLowResumed ∧ ¬(stuckLowResumed.ssv = true ∧ stuckLowResumed.disc = 0) ∧
    sendsSucceed stuckLowResumed.chan 201 ∧ stuckLowResumed.chan.recvAhead 0 = some 0x00 ∧
    (∀ k < 128, stuckLowResumed.chan.recvAhead (k + 1) = some 0x00) ∧
    (∀ i < 64, searchGoesOn stuckLowResumed (fun _ => 0x00) i = true) ∧
    (∀ i < 64, (0x8000000000000000 : Word64).getLsbD i = searchBit stuckLowResumed (fun _ => 0x00) i) ∧
    (∀ i < 64, (0x7FFFFFFFFFFFFFFF : Word64).getLsbD i = searchMask stuckLowResumed (fun _ => 0x00) i) ∧
    verify (addressBytes 0x8000000000000000) = false := by decide +kernel

/-- The failing calls of a search after its reset: the last write slot of the command byte; at position 0 each of the two
read slots, by its send and by its echo, and the write slot; at position 63 the write slot. -/
theorem witness_SearchEndsEarly_channel :
    (sendsSucceed (scripted (oks 8 ++ [false]) [some 0xE0]).chan 8 ∧
      (scripted (oks 8 ++ [false]) [some 0xE0]).chan.sendAhead 8 = false) ∧
    (sendsSucceed (scripted (oks 9 ++ [false]) [some 0xE0]).chan 9 ∧
      (scripted (oks 9 ++ [false]) [some 0xE0]).chan.sendAhead 9 = false) ∧
    (sendsSucceed (scripted (oks 10) [some 0xE0, none]).chan 10 ∧
      (scripted (oks 10) [some 0xE0, none]).chan.recvAhead 1 = none) ∧
    (sendsSucceed (scripted (oks 10 ++ [false]) [some 0xE0, some 0x00]).chan 10 ∧
      (scripted (oks 10 ++ [false]) [some 0xE0, some 0x00]).chan.recvAhead 1 = some 0x00 ∧
      (scripted (oks 10 ++ [false]) [some 0xE0, some 0x00]).chan.sendAhead 10 = false) ∧
    (sendsSucceed (scripted (oks 11) [some 0xE0, some 0x00, none]).chan 11 ∧
      (scripted (oks 11) [some 0xE0, some 0x00, none]).chan.recvAhead 2 = none) ∧
    (sendsSucceed (scripted (oks 11 ++ [false]) [some 0xE0, some 0x00, some 0x00]).chan 11 ∧
      searchGoesOn (scripted (oks 11 ++ [false]) [some 0xE0, some 0x00, some 0x00]) (fun _ => 0x00) 0 = true ∧
      (scripted (oks 11 ++ [false]) [some 0xE0, some 0x00, some 0x00]).chan.sendAhead 11 = false) ∧
    (sendsSucceed (scripted (oks 200 ++ [false]) stuckLow.chan.recvScript).chan (9 + 3 * 63) ∧
      (∀ j < 64, searchGoesOn (scripted (oks 200 ++ [false]) stuckLow.chan.recvScript) (fun _ => 0x00) j = true) ∧
      (scripted (oks 200 ++ [false]) stuckLow.chan.recvScript).chan.sendAhead (11 + 3 * 63) = false) := by decide +kernel

/-- S9, position 0 from the empty state. -/
theorem witness_SearchEndsEarly_nobody :
    everyCallReturns nobodyThere ∧ ¬(nobodyThere.ssv = true ∧ nobodyThere.disc = 0) ∧
    sendsSucceed nobodyThere.chan (9 + 3 * 0) ∧ nobodyThere.chan.recvAhead 0 = some 0xE0 ∧
    (0xE0 : Byte) ≠ nobodyThere.params.resetPattern ∧
    nobodyThere.chan.sendAhead (9 + 3 * 0) = true ∧ nobodyThere.chan.sendAhead (10 + 3 * 0) = true ∧
    (∀ k < 2, nobodyThere.chan.recvAhead (k + 1) = some 0xFF) ∧
    searchGoesOn nobodyThere (fun _ => 0xFF) 0 = false := by decide +kernel

/-- S8, the forced branch at position 3 without a collision. -/
def branchGone : State :=
  (scripted (oks 20) [some 0xE0, some 0x00, some 0xFF, some 0x00, some 0xFF, some 0x00, some 0xFF, some 0x00,
    some 0xFF]).setSearchState deviceA 0x8 3

theorem witness_SearchEndsEarly_forced :
    everyCallReturns branchGone ∧ ¬(branchGone.ssv = true ∧ branchGone.disc = 0) ∧
    sendsSucceed branchGone.chan (9 + 3 * 3) ∧ branchGone.chan.recvAhead 0 = some 0xE0 ∧
    branchGone.chan.sendAhead (9 + 3 * 3) = true ∧ branchGone.chan.sendAhead (10 + 3 * 3) = true ∧
    (∀ k < 2 * 3 + 2, branchGone.chan.recvAhead (k + 1) = some (if k % 2 = 0 then 0x00 else 0xFF)) ∧
    (∀ j < 3, searchGoesOn branchGone (fun k => if k % 2 = 0 then 0x00 else 0xFF) j = true) ∧
    searchGoesOn branchGone (fun k => if k % 2 = 0 then 0x00 else 0xFF) 3 = false := by decide +kernel

theorem rev64_A_before_B : rev64 deviceA < rev64 deviceB := by decide +kernel

/-- What holds of A and of B holds of the devices of S1. -/
theorem both_devices {P : Word64 → Prop} (hA : P deviceA) (hB : P deviceB) : ∀ d ∈ [deviceA, deviceB], P d := by
  simp [hA, hB]

theorem witness_SearchFindsTheFirstDevice :
    deviceA ∈ [deviceA, deviceB] ∧ (∀ d ∈ [deviceA, deviceB], d = deviceA ∨ rev64 deviceA < rev64 d) ∧
    verify (addressBytes deviceA) = true ∧ everyCallReturns (searched [deviceA, deviceB] deviceA) ∧
    (searched [deviceA, deviceB] deviceA).ssv = false ∧
    busAnswers (searched [deviceA, deviceB] deviceA) [deviceA, deviceB] deviceA :=
  ⟨by decide, both_devices (.inl rfl) (.inr rev64_A_before_B), by decide +kernel, rfl, rfl, by decide +kernel⟩

/-- The state of S1 before its second call. -/
def foundA : State := (searched [deviceA, deviceB] deviceB).setSearchState deviceA 0x8 3

theorem witness_SearchFindsTheNextDevice :
    rev64 deviceA < rev64 deviceB ∧
    (∀ d ∈ [deviceA, deviceB], rev64 deviceA < rev64 d → d = deviceB ∨ rev64 deviceB < rev64 d) ∧
    verify (addressBytes deviceB) = true ∧ everyCallReturns foundA ∧
    searchStateAfter [deviceA, deviceB] deviceA foundA ∧ busAnswers foundA [deviceA, deviceB] deviceB :=
  ⟨rev64_A_before_B, both_devices (fun h => absurd h (Nat.lt_irrefl _)) (fun _ => .inl rfl), by decide +kernel, rfl,
    by decide +kernel, by decide +kernel⟩

theorem witness_SearchEndsAfterTheLastDevice :
    deviceB ∈ [deviceA, deviceB] ∧ (∀ d ∈ [deviceA, deviceB], rev64 d ≤ rev64 deviceB) ∧
    searchStateAfter [deviceA, deviceB] deviceB (State.reset.setSearchState deviceB 0 0) :=
  ⟨by decide, both_devices (Nat.le_of_lt rev64_A_before_B) (Nat.le_refl _), by decide +kernel⟩

theorem witness_SearchStateStaysSound :
    searchStateSound foundA ∧ foundA.ssv = true ∧
    ∃ t, exec (.search false) foundA = .next t ∧ (t.addr == deviceB) = true :=
  ⟨by decide +kernel, rfl, next_of_nextIs (by decide +kernel)⟩

theorem witness_SearchToStepSevenMakes732Events :
    (∃ t, exec (.search false) stuckLow = .next t ∧ (t.status == 0x10) = true) ∧
    (∃ t, exec (.search false) stuckLowResumed = .next t ∧ (t.status == 0x03) = true) :=
  ⟨next_of_nextIs (by decide +kernel), next_of_nextIs (by decide +kernel)⟩

theorem witness_EveryCommandEnds : everyCallReturns State.reset := by decide

/-- A channel whose next send never returns. -/
def hanging : State := State.reset.setChan { (scripted [true] [none]).chan with hangAt := some 0 }

/-- Eight sends answered `ok`, of which number `n` never returns. -/
def hangingAt (n : Nat) : State := State.reset.setChan { (scripted (oks 8) []).chan with hangAt := some n }

/-- The first send; the last send of a `WRITE_BYTE`, and the one after it. -/
theorem witness_OnlyAHangStopsACommand :
    (hanging.chan.hangAt = some hanging.chan.sends ∧ exec .reset hanging = .fault .channelHang) ∧
    (∃ t, exec (.writeByte 0x00) (hangingAt 7).withoutHang = .next t ∧ decide (7 < t.chan.sends) = true) ∧
    ∃ t, exec (.writeByte 0x00) (hangingAt 8).withoutHang = .next t ∧ decide (t.chan.sends ≤ 8) = true :=
  ⟨⟨rfl, rfl⟩, next_of_nextIs (by decide +kernel), next_of_nextIs (by decide +kernel)⟩

theorem witness_ErrorWritesStatusOnly :
    ∃ t, exec .readAddress (scripted [true] [some 0xF0]) = .next t ∧ (statusCode t.status == 0x2) = true :=
  next_of_nextIs (by decide +kernel)

theorem witness_CommandsEndWithTheirCodes :
    Instr.wellFormed (.crcVerify 9) = true ∧ ∃ t, exec (.crcVerify 9) State.reset = .next t := ⟨rfl, _, rfl⟩

theorem witness_StatusOnlyCommandsFrame :
    (∃ t, exec .reset State.reset = .next t) ∧ (∃ t, exec .matchAddress State.reset = .next t) ∧
    (∃ t, exec .skipAddress State.reset = .next t) ∧ (∃ t, exec (.writeBit true) State.reset = .next t) ∧
    (∃ t, exec (.writeByte 1) State.reset = .next t) ∧ (∃ t, exec (.crcVerify 0) State.reset = .next t) :=
  ⟨⟨_, rfl⟩, ⟨_, rfl⟩, ⟨_, rfl⟩, ⟨_, rfl⟩, ⟨_, rfl⟩, ⟨_, rfl⟩⟩

theorem witness_DataCommandsFrame :
    (∃ t, exec .readBit State.reset = .next t) ∧ (∃ t, exec .readByte State.reset = .next t) ∧
    (∃ t, exec (.crcCompute 9) State.reset = .next t) := ⟨⟨_, rfl⟩, ⟨_, rfl⟩, ⟨_, rfl⟩⟩

theorem witness_ReadAddressFrame : ∃ t, exec .readAddress State.reset = .next t := ⟨_, rfl⟩

theorem witness_SearchFrame : ∃ t, exec (.search true) State.reset = .next t := ⟨_, rfl⟩

theorem witness_ChannelFrame :
    (∃ t, exec (.search false) State.reset = .next t) ∧ ∃ t, exec (.crcCompute 1) State.reset = .next t :=
  ⟨⟨_, rfl⟩, ⟨_, rfl⟩⟩

theorem witness_TraceIsMadeOfSlots : ∃ t, exec .readByte State.reset = .next t := ⟨_, rfl⟩

theorem witness_RateLeftOnTheChannel :
    (∃ t, exec .reset State.reset = .next t) ∧ (∃ t, exec (.writeByte 0) State.reset = .next t) ∧
    (∃ t, exec (.crcVerify 2) State.reset = .next t) ∧ (∃ t, exec .readAddress State.reset = .next t) ∧
    (∃ t, exec .matchAddress State.reset = .next t) ∧ (∃ t, exec .skipAddress State.reset = .next t) ∧
    (¬(State.reset.ssv = true ∧ State.reset.disc = 0) ∧ ∃ t, exec (.search true) State.reset = .next t) ∧
    ∃ t, exec (.search true) (State.reset.setSsv true) = .next t :=
  ⟨⟨_, rfl⟩, ⟨_, rfl⟩, ⟨_, rfl⟩, ⟨_, rfl⟩, ⟨_, rfl⟩, ⟨_, rfl⟩, ⟨by decide, _, rfl⟩, _, rfl⟩

/-- A command with events appended to the trace. -/
theorem witness_EverySendHasBothFlushes :
    ∃ t, exec (.writeBit true) (scripted [true] []) = .next t ∧
      (t.chan.trace == (scripted [true] []).chan.trace ++ writeSlot defaultParams true true) = true :=
  next_of_nextIs (by decide +kernel)

theorem witness_ChannelFailureIsTheLastEvent :
    ∃ t, exec (.writeBit true) (scripted [false] []) = .next t ∧
      (t.chan.trace == (scripted [false] []).chan.trace ++ writeSlot defaultParams true false) = true :=
  next_of_nextIs (by decide +kernel)

/-- Two states that differ in `STATUS` and `DATA` only. -/
theorem witness_AnswersDecideTheRun :
    ((State.reset.setStatus 0x04).setData 0x5A).chan = State.reset.chan ∧ everyCallReturns State.reset ∧
    ((State.reset.setStatus 0x04).setData 0x5A).params = State.reset.params ∧
    (∃ t, exec .readByte State.reset = .next t) := ⟨rfl, rfl, rfl, _, rfl⟩

theorem witness_StepKeepsStatusLegal :
    statusLegal (about (.command 0x1000)) ∧ ∃ t, step (about (.command 0x1000)) = .next t := ⟨by decide, _, rfl⟩

theorem witness_StepKeepsParametersAndHistory : ∃ t, step (about .hardwareReset) = .next t := ⟨_, rfl⟩

theorem witness_HardwareResetLeavesTheChannel : (about .hardwareReset).pending = [.hardwareReset] := rfl

/-- Each clause at the ends of its range: the byte that `windowByte` gives meets every hypothesis. -/
theorem witness_WindowReads :
    ∀ offset ∈ ([0x00, 0x01, 0x02, 0x03, 0x04, 0x05, 0x06, 0x07, 0x08, 0x0F, 0x10, 0x17, 0x18, 0x20, 0x21, 0x3F] :
      List (BitVec 6)),
      (offset.toNat ∈ [0x00, 0x01, 0x06, 0x07] ∨ 0x21 ≤ offset.toNat → windowByte foundA offset = 0x00) ∧
      (offset.toNat = 0x02 → windowByte foundA offset = foundA.status) ∧
      (offset.toNat = 0x03 → windowByte foundA offset = foundA.data) ∧
      (offset.toNat = 0x04 → (windowByte foundA offset).toNat = foundA.ldi.toNat) ∧
      (offset.toNat = 0x05 → windowByte foundA offset = if foundA.ssv then 0x01 else 0x00) ∧
      (∀ k < 8, offset.toNat = 0x08 + k → windowByte foundA offset = foundA.addr.extractLsb' (8 * k) 8) ∧
      (∀ k < 8, offset.toNat = 0x10 + k → windowByte foundA offset = foundA.disc.extractLsb' (8 * k) 8) ∧
      (∀ j : Fin 9, offset.toNat = 0x18 + j.val → windowByte foundA offset = foundA.buf[j]) := by decide +kernel

theorem witness_WindowWritesIgnored :
    ∀ offset ∈ ([0x00, 0x01, 0x02, 0x03, 0x06, 0x07, 0x21, 0x3F] : List (BitVec 6)),
      (about (.window (.writeByte offset 0xFF))).pending = [.window (.writeByte offset 0xFF)] ∧
      (offset.toNat ∈ [0x00, 0x01, 0x02, 0x03, 0x06, 0x07] ∨ 0x21 ≤ offset.toNat) := by decide +kernel

theorem witness_WindowWritesStored :
    (about (.window (.writeByte 0x20 0xFF))).pending = [.window (.writeByte 0x20 0xFF)] ∧
    (0x04 : BitVec 6).toNat = 0x04 ∧ (0x05 : BitVec 6).toNat = 0x05 ∧ (0x08 : BitVec 6).toNat = 0x08 + 0 ∧
    (0x0F : BitVec 6).toNat = 0x08 + 7 ∧ (0x10 : BitVec 6).toNat = 0x10 + 0 ∧ (0x17 : BitVec 6).toNat = 0x10 + 7 ∧
    (0x18 : BitVec 6).toNat = 0x18 + (0 : Fin 9).val ∧ (0x20 : BitVec 6).toNat = 0x18 + (8 : Fin 9).val := by decide

theorem witness_WindowWholeAccesses :
    (about (.window .readCommand)).pending = [.window .readCommand] ∧
    (about (.window (.readWide .addr))).pending = [.window (.readWide .addr)] ∧
    (about (.window (.readWide .disc))).pending = [.window (.readWide .disc)] ∧
    (about (.window (.writeWide .addr 1))).pending = [.window (.writeWide .addr 1)] ∧
    (about (.window (.writeWide .disc 1))).pending = [.window (.writeWide .disc 1)] := by decide

theorem witness_ByteWritesMakeTheWholeWrite : [7, 0, 6, 1, 5, 2, 4, 3].Perm (List.range 8) := by decide

theorem witness_IdleBlockHoldsItsState : State.reset.pending = [] := rfl

theorem witness_BroadcastMeasurementSequence :
    everyCallReturns (scripted (oks 17) [some 0xE0]) ∧ sendsSucceed (scripted (oks 17) [some 0xE0]).chan 17 ∧
    (scripted (oks 17) [some 0xE0]).chan.recvAhead 0 = some 0xE0 ∧
    (0xE0 : Byte) ≠ (scripted (oks 17) [some 0xE0]).params.resetPattern := by decide +kernel

/-- A rounding and two bytes for the clauses on floating-point values. -/
theorem witness_CelsiusValue :
    (∀ q : Rat, 0 ≤ q → 0 ≤ id q) ∧ id (0 : Rat) = 0 ∧ defaultParams.negThreshold.toNat < (0xFF : Byte).toNat ∧
    ((0xF0 : Byte).toNat / 16 + 16 * ((0xFF : Byte).toNat % 8) : Int) = 127 ∧
    (6 * ((0xF0 : Byte).toNat % 16) : Int) = 0 := ⟨fun _ h => h, rfl, by decide, by decide, by decide⟩

/-- The digits of E2. -/
def digitsOfE2 (k : Nat) : BitVec 4 :=
  ([0x2, 0x8, 0xF, 0xF, 0x4, 0xB, 0x4, 0x6, 0x9, 0x2, 0x1, 0x6, 0x0, 0x4, 0x7, 0x8] : List (BitVec 4)).getD k 0

/-- A style the reader takes; a short text; a text of digit pairs that is taken and one that is not; one that is too long,
one with a bad digit and one with a bad separator, each at the end of its range. -/
theorem witness_AddressTextRoundTrip :
    strictReader.letterCase = (if (TextStyle.mk true true false).upperCase then .upper else .lower) ∧
    ([] : List Char).length < 23 ∧
    (∀ k < 16, hexValue ("28-FF:4B:46:92:16:04:78".toList.getD (3 * (k / 2) + k % 2) ' ') = some (digitsOfE2 k)) ∧
    (∀ j < 7, "28-FF:4B:46:92:16:04:78".toList.getD (3 * j + 2) ' ' = ':' ∨
      "28-FF:4B:46:92:16:04:78".toList.getD (3 * j + 2) ' ' = '-') ∧
    textAllowed lenientReader "28-FF:4B:46:92:16:04:78".toList = true ∧
    textAllowed strictReader "28-FF:4B:46:92:16:04:78".toList = false ∧
    23 < "28:FF:4B:46:92:16:04:780".toList.length ∧
    hexValue ("28:FF:4B:46:92:16:04:7G".toList.getD (3 * (15 / 2) + 15 % 2) ' ') = none ∧
    "28:FF:4B:46:92:16:04.78".toList.getD (3 * 6 + 2) ' ' = '.' := by decide +kernel

end Sys2Proof.Machine.Tests
end

/-! ## The hardware reset (rules R34, R222) -/

namespace Sys2Proof.Machine

/-! What `hardwareReset` writes: the empty Search State and `STATUS`. -/

@[simp] theorem hardwareReset_ssv (s : State) : (hardwareReset s).ssv = false := rfl
@[simp] theorem hardwareReset_addr (s : State) : (hardwareReset s).addr = 0 := rfl
@[simp] theorem hardwareReset_disc (s : State) : (hardwareReset s).disc = 0 := rfl
@[simp] theorem hardwareReset_ldi (s : State) : (hardwareReset s).ldi = 0 := rfl
@[simp] theorem hardwareReset_status (s : State) : (hardwareReset s).status = 0x00 := rfl

/-! What `hardwareReset` leaves as it was. -/

@[simp] theorem hardwareReset_chan (s : State) : (hardwareReset s).chan = s.chan := rfl
@[simp] theorem hardwareReset_params (s : State) : (hardwareReset s).params = s.params := rfl
@[simp] theorem hardwareReset_pending (s : State) : (hardwareReset s).pending = s.pending := rfl
@[simp] theorem hardwareReset_reads (s : State) : (hardwareReset s).reads = s.reads := rfl

/-- A pending hardware reset is taken and always answers a next state: it cannot fault and is never refused. -/
theorem step_hardwareReset {s : State} {rest : List Input} (h : s.pending = .hardwareReset :: rest) :
    step s = .next (hardwareReset (s.setPending rest)) := by
  rw [step_input h, perform]

/-- Settles O51: the step is `hardwareReset` on the state with the input taken, and each field is read off by its rule. -/
theorem hardwareResetLeavesTheChannel : Obligations.HardwareResetLeavesTheChannel := by
  intro s rest h
  refine ⟨hardwareReset (s.setPending rest), step_hardwareReset h, ?_⟩
  simp

end Sys2Proof.Machine

/-! ## The decoder and the opcode table (rules R80 to R83, R90) -/

namespace Sys2Proof

/-! The two fields of a word. -/

/-- A word is its two fields (rule R80). -/
theorem opcodeField_append_immediateField (w : CommandWord) : opcodeField w ++ immediateField w = w := by
  rw [opcodeField, immediateField, BitVec.extractLsb'_append_extractLsb'_eq_extractLsb' (by rfl)]
  exact BitVec.extractLsb'_eq_self

theorem word_eq_iff_fields (w v : CommandWord) :
    w = v ↔ opcodeField w = opcodeField v ∧ immediateField w = immediateField v := by
  constructor
  · rintro rfl
    exact ⟨rfl, rfl⟩
  · rintro ⟨hopc, himm⟩
    rw [← opcodeField_append_immediateField w, hopc, himm, opcodeField_append_immediateField]

@[simp] theorem opcodeField_and (w v : CommandWord) : opcodeField (w &&& v) = opcodeField w &&& opcodeField v :=
  BitVec.extractLsb'_and

@[simp] theorem immediateField_and (w v : CommandWord) :
    immediateField (w &&& v) = immediateField w &&& immediateField v :=
  BitVec.extractLsb'_and

/-- A part of `IMM` is that part of the word. -/
theorem extractLsb'_immediateField (w : CommandWord) (start len : Nat) (h : start + len ≤ 8) :
    (immediateField w).extractLsb' start len = w.extractLsb' start len := by
  ext i hi
  have : start + i < 8 := by omega
  simp [immediateField, this]

/-! When each format reads its operand, and what it reads (rule R81). -/

@[simp] theorem formatN_eq_ok_iff (imm : Byte) (i j : Instr) : formatN imm i = .ok j ↔ imm = 0 ∧ i = j := by
  unfold formatN
  split <;> simp_all

@[simp] theorem formatB_eq_ok_iff (imm : Byte) (mk : Bool → Instr) (j : Instr) :
    formatB imm mk = .ok j ↔ imm.extractLsb' 1 7 = 0 ∧ mk (imm.getLsbD 0) = j := by
  unfold formatB
  split <;> simp_all

@[simp] theorem formatY_eq_ok_iff (imm : Byte) (mk : Byte → Instr) (j : Instr) :
    formatY imm mk = .ok j ↔ mk imm = j := by
  simp [formatY]

@[simp] theorem formatL_eq_ok_iff (imm : Byte) (mk : BitVec 4 → Instr) (j : Instr) :
    formatL imm mk = .ok j ↔
      imm.extractLsb' 4 4 = 0 ∧ lengthOk (imm.extractLsb' 0 4) = true ∧ mk (imm.extractLsb' 0 4) = j := by
  unfold formatL
  split
  · split <;> simp_all
  · simp_all

theorem exists_error_iff_not_exists_ok {ε α : Type} (x : Except ε α) :
    (∃ e, x = .error e) ↔ ¬∃ a, x = .ok a := by
  cases x <;> simp

/-! The rows of the table (rule R83). -/

theorem mem_opcodeRows_iff (r : Row) : r ∈ opcodeRows ↔ ∃ i, rowOf i = r := by
  constructor
  · revert r
    simp only [opcodeRows, List.cons_append, List.nil_append, List.forall_mem_cons]
    exact ⟨⟨.reset, rfl⟩, ⟨.writeBit false, rfl⟩, ⟨.readBit, rfl⟩, ⟨.writeByte 0, rfl⟩, ⟨.readByte, rfl⟩,
      ⟨.crcCompute 0, rfl⟩, ⟨.crcVerify 0, rfl⟩, ⟨.readAddress, rfl⟩, ⟨.matchAddress, rfl⟩, ⟨.skipAddress, rfl⟩,
      ⟨.search false, rfl⟩, List.forall_mem_nil _⟩
  · rintro ⟨i, rfl⟩
    cases i <;> simp [rowOf, opcodeRows]

@[simp] theorem opcodeField_rowOf_pattern (i : Instr) : opcodeField (rowOf i).pattern = opcodeOf i := by
  cases i <;> simp [rowOf, opcodeOf, opcodeField]

@[simp] theorem immediateField_rowOf_pattern (i : Instr) : immediateField (rowOf i).pattern = 0 := by
  cases i <;> simp [rowOf, immediateField]

@[simp] theorem opcodeField_rowOf_mask (i : Instr) : opcodeField (rowOf i).mask = 0xFF := by
  cases i <;> simp [rowOf, opcodeField]

/-- The opcodes are those of the table's patterns. -/
theorem mem_opcodes_iff (c : Byte) :
    c ∈ [(0x01 : Byte), 0x02, 0x03, 0x04, 0x05, 0x10, 0x11, 0x20, 0x21, 0x22, 0x30] ↔ ∃ i, opcodeOf i = c := by
  have hpatterns : [(0x01 : Byte), 0x02, 0x03, 0x04, 0x05, 0x10, 0x11, 0x20, 0x21, 0x22, 0x30] =
      opcodeRows.map fun r => opcodeField r.pattern := by decide
  rw [hpatterns]
  simp [mem_opcodeRows_iff]

/-! The decoder as a choice of row by `OPC`, then a reading of `IMM` by the row's format. -/

/-- `IMM` read by the format of a command's row (rule R83); the command's own operand has no part in it. -/
def readImmediate (imm : Byte) : Instr → Except DecodeError Instr
  | .reset => formatN imm .reset
  | .writeBit _ => formatB imm .writeBit
  | .readBit => formatN imm .readBit
  | .writeByte _ => formatY imm .writeByte
  | .readByte => formatN imm .readByte
  | .crcCompute _ => formatL imm .crcCompute
  | .crcVerify _ => formatL imm .crcVerify
  | .readAddress => formatN imm .readAddress
  | .matchAddress => formatN imm .matchAddress
  | .skipAddress => formatN imm .skipAddress
  | .search _ => formatB imm .search

theorem decode_of_opcode {w : CommandWord} {i : Instr} (h : opcodeOf i = opcodeField w) :
    decode w = readImmediate (immediateField w) i := by
  cases i <;> simp [decode, ← h, opcodeOf, readImmediate]

theorem decode_of_no_opcode {w : CommandWord} (h : ¬∃ i, opcodeOf i = opcodeField w) :
    decode w = .error .noSuchOpcode := by
  rw [← mem_opcodes_iff] at h
  simp_all [decode, ← BitVec.toNat_inj]

/-- A word decodes exactly when `OPC` chooses a row and that row's format reads `IMM`. -/
theorem decode_eq_ok_iff {w : CommandWord} {j : Instr} :
    decode w = .ok j ↔ ∃ i, opcodeOf i = opcodeField w ∧ readImmediate (immediateField w) i = .ok j := by
  constructor
  · intro h
    by_cases hopc : ∃ i, opcodeOf i = opcodeField w
    · obtain ⟨i, hi⟩ := hopc
      exact ⟨i, hi, by rwa [decode_of_opcode hi] at h⟩
    · simp [decode_of_no_opcode hopc] at h
  · rintro ⟨i, hi, h⟩
    rw [decode_of_opcode hi, h]

theorem rowOf_of_readImmediate {imm : Byte} {i j : Instr} (h : readImmediate imm i = .ok j) : rowOf j = rowOf i := by
  cases i <;> simp only [readImmediate, formatN_eq_ok_iff, formatB_eq_ok_iff, formatY_eq_ok_iff, formatL_eq_ok_iff] at h
  case writeByte =>
    subst h
    rfl
  case crcCompute | crcVerify =>
    obtain ⟨-, -, rfl⟩ := h
    rfl
  all_goals
    obtain ⟨-, rfl⟩ := h
    rfl

/-! Selecting a row (rule R83), field by field. -/

/-- A mask that covers `OPC` whole compares the opcode, and the masked part of `IMM`. -/
theorem and_mask_eq_iff {w mask pattern : CommandWord} (h : opcodeField mask = 0xFF) :
    w &&& mask = pattern ↔
      opcodeField w = opcodeField pattern ∧ immediateField w &&& immediateField mask = immediateField pattern := by
  have hopc : opcodeField w &&& 0xFF = opcodeField w := BitVec.and_allOnes
  rw [word_eq_iff_fields, opcodeField_and, immediateField_and, h, hopc]

theorem and_0xFE_eq_zero_iff : ∀ imm : Byte, imm &&& 0xFE = 0 ↔ imm.extractLsb' 1 7 = 0 := by decide +kernel

theorem and_0xF0_eq_zero_iff : ∀ imm : Byte, imm &&& 0xF0 = 0 ↔ imm.extractLsb' 4 4 = 0 := by decide +kernel

/-- The row's mask and length constraint let through the immediates that its format reads. -/
theorem immediate_selects_rowOf_iff (imm : Byte) (i : Instr) :
    (imm &&& immediateField (rowOf i).mask = 0 ∧ (!(rowOf i).lengthLimited || lengthOk (imm.extractLsb' 0 4)) = true) ↔
      ∃ j, readImmediate imm i = .ok j := by
  have hFF : imm &&& 0xFF#8 = imm := BitVec.and_allOnes
  have hFE : imm &&& 0xFE#8 = 0#8 ↔ imm.extractLsb' 1 7 = 0#7 := and_0xFE_eq_zero_iff imm
  have hF0 : imm &&& 0xF0#8 = 0#8 ↔ imm.extractLsb' 4 4 = 0#4 := and_0xF0_eq_zero_iff imm
  cases i <;> simp [rowOf, readImmediate, immediateField, hFF, hFE, hF0]

theorem selectsRow_rowOf_iff {w : CommandWord} {i : Instr} :
    selectsRow w (rowOf i) = true ↔
      opcodeOf i = opcodeField w ∧ ∃ j, readImmediate (immediateField w) i = .ok j := by
  rw [← immediate_selects_rowOf_iff, extractLsb'_immediateField w 0 4 (by decide), selectsRow, Bool.and_eq_true,
    beq_iff_eq, and_mask_eq_iff (opcodeField_rowOf_mask i), opcodeField_rowOf_pattern, immediateField_rowOf_pattern,
    and_assoc, eq_comm (a := opcodeField w)]

/-- Settles O3: a row is the row of some command; selecting it says that `OPC` is that command's and that its format reads
`IMM`, and then the decoder gives a command of the row. -/
theorem decodeFollowsTheOpcodeTable : Obligations.DecodeFollowsTheOpcodeTable := by
  intro w r hr
  obtain ⟨i, rfl⟩ := (mem_opcodeRows_iff r).mp hr
  constructor
  · intro hsel
    obtain ⟨hopc, j, hj⟩ := selectsRow_rowOf_iff.mp hsel
    exact ⟨j, decode_eq_ok_iff.mpr ⟨i, hopc, hj⟩, rowOf_of_readImmediate hj⟩
  · rintro ⟨j, hdec, hrow⟩
    obtain ⟨k, hopc, hj⟩ := decode_eq_ok_iff.mp hdec
    rw [← hrow, rowOf_of_readImmediate hj]
    exact selectsRow_rowOf_iff.mpr ⟨hopc, j, hj⟩

/-! Illegal words (rule R90). -/

/-- The four kinds of illegal word, by opcode and format. -/
theorem decode_error_iff (w : CommandWord) :
    (∃ e, decode w = .error e) ↔
      (opcodeField w ∉ [(0x01 : Byte), 0x02, 0x03, 0x04, 0x05, 0x10, 0x11, 0x20, 0x21, 0x22, 0x30]) ∨
      (opcodeField w ∈ [(0x01 : Byte), 0x03, 0x05, 0x20, 0x21, 0x22] ∧ immediateField w ≠ 0) ∨
      (opcodeField w ∈ [(0x02 : Byte), 0x30] ∧ (immediateField w).extractLsb' 1 7 ≠ 0) ∨
      (opcodeField w ∈ [(0x10 : Byte), 0x11] ∧
        ((immediateField w).extractLsb' 4 4 ≠ 0 ∨ 9 < ((immediateField w).extractLsb' 0 4).toNat)) := by
  by_cases hopc : ∃ i, opcodeOf i = opcodeField w
  · obtain ⟨i, hi⟩ := hopc
    rw [exists_error_iff_not_exists_ok, decode_of_opcode hi, ← hi]
    generalize immediateField w = imm
    cases i <;> simp [readImmediate, opcodeOf, lengthOk, imp_iff_not_or]
  · exact iff_of_true ⟨_, decode_of_no_opcode hopc⟩ (.inl (by rwa [mem_opcodes_iff]))

end Sys2Proof

namespace Sys2Proof.Machine

/-- The step takes an illegal word and ends it as `endIllegal` does (rule R90). -/
theorem step_illegal {s : State} {w : CommandWord} {rest : List Input} {e : DecodeError}
    (h : s.pending = .command w :: rest) (hdec : decode w = .error e) :
    step s = .next (endIllegal (s.setPending rest)) := by
  rw [step_input h, perform, hdec, issue]

/-- Settles O2: the illegal words by a case split over the row that `OPC` chooses; the step is `endIllegal` on the state
with the input taken, and that writes `STATUS` alone. -/
theorem illegalWordsWriteStatusOnly : Obligations.IllegalWordsWriteStatusOnly := by
  constructor
  · intro w
    rw [decode_error_iff, extractLsb'_immediateField w 1 7 (by decide), extractLsb'_immediateField w 4 4 (by decide),
      extractLsb'_immediateField w 0 4 (by decide)]
    rfl
  · intro s w rest e h hdec
    exact step_illegal h hdec

end Sys2Proof.Machine

/-! ## Slots, bytes and the commands of the bit transport (rules R59, R100 to R104) -/

namespace Sys2Proof.Machine

/-! Loops whose turns are known. `val k` and `ch k` are the value and the channel before turn `k`. -/

/-- A loop none of whose turns fails ends with the value and the channel of the last one. -/
theorem Op.loop_of_turns {α : Type} {body : Nat → α → Op α} {i n : Nat} (val : Nat → α) (ch : Nat → Channel)
    (turn : ∀ k < n, body (i + k) (val k) (ch k) = ⟨.ok (val (k + 1)), ch (k + 1)⟩) :
    Op.loop body i n (val 0) (ch 0) = ⟨.ok (val n), ch n⟩ := by
  induction n generalizing i val ch with
  | zero => rfl
  | succ n ih =>
    refine (Op.bind_of_ok (turn 0 n.succ_pos)).trans ?_
    refine ih (fun k => val (k + 1)) (fun k => ch (k + 1)) fun k hk => ?_
    rw [Nat.add_right_comm]
    exact turn (k + 1) (Nat.succ_lt_succ hk)

/-- A loop ends with the error of its first failing turn, and on the channel that turn leaves. -/
theorem Op.loop_of_turn_error {α : Type} {body : Nat → α → Op α} {i n j : Nat} {e : ErrorKind} {c : Channel}
    (val : Nat → α) (ch : Nat → Channel) (hj : j < n)
    (turn : ∀ k < j, body (i + k) (val k) (ch k) = ⟨.ok (val (k + 1)), ch (k + 1)⟩)
    (fails : body (i + j) (val j) (ch j) = ⟨.error e, c⟩) :
    Op.loop body i n (val 0) (ch 0) = ⟨.error e, c⟩ := by
  obtain ⟨n, rfl⟩ := Nat.exists_eq_add_one_of_ne_zero (Nat.ne_zero_of_lt hj)
  induction j generalizing i n val ch with
  | zero => exact Op.bind_of_error fails
  | succ j ih =>
    have hj := Nat.lt_of_succ_lt_succ hj
    obtain ⟨n, rfl⟩ := Nat.exists_eq_add_one_of_ne_zero (Nat.ne_zero_of_lt hj)
    refine (Op.bind_of_ok (turn 0 j.succ_pos)).trans ?_
    refine ih (fun k => val (k + 1)) (fun k => ch (k + 1)) (fun k hk => ?_) ?_ n hj
    · rw [Nat.add_right_comm]
      exact turn (k + 1) (Nat.succ_lt_succ hk)
    · rw [Nat.add_right_comm]
      exact fails

/-! Slot after slot. -/

@[simp] theorem writeSlots_zero (p : Params) (bit : Nat → Bool) : writeSlots p 0 bit = [] := rfl

theorem writeSlots_succ (p : Params) (n : Nat) (bit : Nat → Bool) :
    writeSlots p (n + 1) bit = writeSlots p n bit ++ writeSlot p (bit n) true := by
  simp [writeSlots, List.range_succ]

@[simp] theorem readSlots_zero (echo : Nat → Byte) : readSlots 0 echo = [] := rfl

theorem readSlots_succ (n : Nat) (echo : Nat → Byte) :
    readSlots (n + 1) echo = readSlots n echo ++ readSlot (some (echo n)) := by
  simp [readSlots, List.range_succ]

/-- The write slot that follows `k` successful ones. -/
theorem writeBit_after_writeSlots (p : Params) (bit : Nat → Bool) (c : Channel) (k : Nat) (h : c.sendAhead k = true) :
    writeBit p (bit k) (c.advance k 0 (writeSlots p k bit)) =
      ⟨.ok (), c.advance (k + 1) 0 (writeSlots p (k + 1) bit)⟩ := by
  simp [writeBit_apply, h, writeSlots_succ]

/-- The byte whose bits below `n` are those that `echo 0, echo 1, ...` stand for, gathered as `read_byte` does
(rule R104). -/
def gatherEchoes (p : Params) (echo : Nat → Byte) : Nat → Byte
  | 0 => 0
  | n + 1 => setBit (gatherEchoes p echo n) n (echoBit p (echo n))

theorem getLsbD_gatherEchoes (p : Params) (echo : Nat → Byte) (n i : Nat) (h : i < 8) :
    (gatherEchoes p echo n).getLsbD i = (decide (i < n) && echoBit p (echo i)) := by
  induction n with
  | zero => simp [gatherEchoes]
  | succ n ih =>
    rw [gatherEchoes, getLsbD_setBit, ih]
    rcases Nat.lt_trichotomy i n with hlt | rfl | hgt
    · simp [hlt, hlt.ne, Nat.lt_succ_of_lt hlt]
    · simp [h]
    · simp [hgt.ne', Nat.not_lt.mpr hgt.le, Nat.not_lt.mpr (Nat.succ_le_of_lt hgt)]

/-- Eight echoes gather the one byte whose bits they stand for. -/
theorem gatherEchoes_eight {p : Params} {echo : Nat → Byte} {v : Byte}
    (h : ∀ i < 8, v.getLsbD i = echoBit p (echo i)) : gatherEchoes p echo 8 = v := by
  refine BitVec.eq_of_getLsbD_eq fun i hi => ?_
  rw [getLsbD_gatherEchoes p echo 8 i hi, h i hi, decide_eq_true hi, Bool.true_and]

/-- The read slot that follows `k` successful ones, its bit gathered at position `k`. -/
theorem readBitInto_after_readSlots (p : Params) (echo : Nat → Byte) (c : Channel) (k : Nat)
    (hsend : c.sendAhead k = true) (hrecv : c.recvAhead k = some (echo k)) :
    readBitInto p k (gatherEchoes p echo k) (c.advance k k (readSlots k echo)) =
      ⟨.ok (gatherEchoes p echo (k + 1)),
        c.advance (k + 1) (k + 1) (readSlots (k + 1) echo)⟩ := by
  have hread := readBit_echo p (c.advance k k (readSlots k echo)) (echo k) (by simpa using hsend) (by simpa using hrecv)
  rw [readBitInto, Op.bind_of_ok hread]
  simp [gatherEchoes, readSlots_succ, sensedBit_eq_echoBit]

/-! Whole bytes (rules R103, R104), from any channel. -/

theorem writeByte_ok (p : Params) (v : Byte) (c : Channel) (h : sendsSucceed c 8) :
    writeByte p v c = ⟨.ok (), c.advance 8 0 (writeSlots p 8 fun i => v.getLsbD i)⟩ :=
  Op.loop_of_turns (fun _ => ()) (fun k => c.advance k 0 (writeSlots p k fun i => v.getLsbD i)) fun k hk => by
    simpa using writeBit_after_writeSlots p (fun i => v.getLsbD i) c k (h k hk)

theorem writeByte_send_fails (p : Params) (v : Byte) (c : Channel) (i : Nat) (hi : i < 8) (h : sendsSucceed c i)
    (hfail : c.sendAhead i = false) :
    writeByte p v c =
      ⟨.error .channelFailure,
        c.advance (i + 1) 0 (writeSlots p i (fun j => v.getLsbD j) ++ writeSlot p (v.getLsbD i) false)⟩ :=
  Op.loop_of_turn_error (fun _ => ()) (fun k => c.advance k 0 (writeSlots p k fun j => v.getLsbD j)) hi
    (fun k hk => by simpa using writeBit_after_writeSlots p (fun j => v.getLsbD j) c k (h k hk))
    (by simp [writeBit_apply, hfail])

theorem readByte_ok (p : Params) (echo : Nat → Byte) (c : Channel) (hsend : sendsSucceed c 8)
    (hecho : echoesAre c 8 echo) :
    readByte p c = ⟨.ok (gatherEchoes p echo 8), c.advance 8 8 (readSlots 8 echo)⟩ :=
  Op.loop_of_turns (gatherEchoes p echo) (fun k => c.advance k k (readSlots k echo)) fun k hk => by
    simpa using readBitInto_after_readSlots p echo c k (hsend k hk) (hecho k hk)

/-- A read slot that fails after `i` successful ones ends `read_byte`, whatever made it fail. -/
theorem readByte_slot_fails (p : Params) (echo : Nat → Byte) (c c' : Channel) (i : Nat) (hi : i < 8)
    (hsend : sendsSucceed c i) (hecho : echoesAre c i echo)
    (hfail : readBit p (c.advance i i (readSlots i echo)) = ⟨.error .channelFailure, c'⟩) :
    readByte p c = ⟨.error .channelFailure, c'⟩ :=
  Op.loop_of_turn_error (gatherEchoes p echo) (fun k => c.advance k k (readSlots k echo)) hi
    (fun k hk => by simpa using readBitInto_after_readSlots p echo c k (hsend k hk) (hecho k hk))
    (Op.bind_of_error hfail)

theorem readByte_send_fails (p : Params) (echo : Nat → Byte) (c : Channel) (i : Nat) (hi : i < 8)
    (hsend : sendsSucceed c i) (hecho : echoesAre c i echo) (hfail : c.sendAhead i = false) :
    readByte p c = ⟨.error .channelFailure, c.advance (i + 1) i (readSlots i echo ++ readSlotCut)⟩ := by
  refine readByte_slot_fails p echo c _ i hi hsend hecho ?_
  rw [readBit_send_fails p _ (by simpa using hfail), Channel.advance_advance]
  rfl

theorem readByte_no_echo (p : Params) (echo : Nat → Byte) (c : Channel) (i : Nat) (hi : i < 8)
    (hsend : sendsSucceed c (i + 1)) (hecho : echoesAre c i echo) (hnone : c.recvAhead i = none) :
    readByte p c = ⟨.error .channelFailure, c.advance (i + 1) (i + 1) (readSlots i echo ++ readSlot none)⟩ := by
  refine readByte_slot_fails p echo c _ i hi (fun k hk => hsend k (Nat.lt_succ_of_lt hk)) hecho ?_
  rw [readBit_no_echo p _ (by simpa using hsend i i.lt_succ_self) (by simpa using hnone), Channel.advance_advance]

/-! The words that `STATUS` takes (rules R25, R202). -/

@[simp] theorem okStatus_false : okStatus false = 0x00 := rfl
@[simp] theorem okStatus_true : okStatus true = 0x10 := rfl
@[simp] theorem errorStatus_channelFailure : errorStatus .channelFailure = 0x01 := rfl

theorem okStatus_present (p : Params) (v : Byte) :
    okStatus (v != p.resetPattern) = if v = p.resetPattern then 0x00 else 0x10 := by
  by_cases h : v = p.resetPattern
  · simp [h]
  · rw [if_neg h, bne_iff_ne.mpr h, okStatus_true]

/-- What `READ_BIT` writes to `DATA` (rule R102). -/
theorem sensedBit_setWidth (p : Params) (v : Byte) :
    (BitVec.ofBool (sensedBit p v)).setWidth 8 = if p.rdThreshold.toNat < v.toNat then 0x01#8 else 0x00#8 := by
  rw [sensedBit_eq_echoBit, echoBit]
  split <;> simp [*]

/-! A command whose sub-operation's end is known, where every call returns. -/

theorem runCommand_of_ok {α : Type} {s : State} {o : Op α} {v : α} {c : Channel} (commit : α → State → State)
    (hret : everyCallReturns s) (h : o s.chan = ⟨.ok v, c⟩) :
    runCommand s o commit = .next (commit v (s.setChan c)) := by
  rw [runCommand_returns s o commit hret, settle_ok h]

theorem runCommand_of_channelFailure {α : Type} {s : State} {o : Op α} {c : Channel} (commit : α → State → State)
    (hret : everyCallReturns s) (h : o s.chan = ⟨.error .channelFailure, c⟩) :
    runCommand s o commit = .next { s with status := 0x01, chan := c } := by
  rw [runCommand_returns s o commit hret, settle_error h]
  rfl

/-! What `exec` calls for the five commands (rule R83). -/

theorem exec_reset (s : State) :
    exec .reset s = runCommand s (busReset s.params) fun present t => t.setStatus (okStatus present) := rfl

theorem exec_writeBit (b : Bool) (s : State) :
    exec (.writeBit b) s = runCommand s (writeBit s.params b) fun _ t => t.setStatus (okStatus false) := rfl

theorem exec_readBit (s : State) :
    exec .readBit s = runCommand s (readBit s.params) fun r t =>
      (t.setData ((BitVec.ofBool r).setWidth 8)).setStatus (okStatus false) := rfl

theorem exec_writeByte (v : Byte) (s : State) :
    exec (.writeByte v) s = runCommand s (writeByte s.params v) fun _ t => t.setStatus (okStatus false) := rfl

theorem exec_readByte (s : State) :
    exec .readByte s = runCommand s (readByte s.params) fun v t => (t.setData v).setStatus (okStatus false) := rfl

/-- Settles O7: the three ends of `busReset`, each carried through the command. -/
theorem resetReportsPresence : Obligations.ResetReportsPresence := by
  refine ⟨by decide, fun s hret => ⟨fun hsend => ?_, fun hsend hrecv => ?_, fun v hsend hrecv => ?_⟩⟩
  · rw [exec_reset, runCommand_of_channelFailure _ hret (busReset_send_fails _ _ hsend)]
  · rw [exec_reset, runCommand_of_channelFailure _ hret (busReset_no_echo _ _ hsend hrecv)]
  · rw [exec_reset, runCommand_of_ok _ hret (busReset_echo _ _ v hsend hrecv), okStatus_present]
    rfl

/-- Settles O8: one write slot, which fails exactly when its send does. -/
theorem writeBitSendsOneSlot : Obligations.WriteBitSendsOneSlot := by
  refine ⟨by decide, by decide, by decide, fun b s hret => ?_⟩
  have hslot := writeBit_apply s.params b s.chan
  cases hsend : s.chan.sendAhead 0 <;> rw [hsend] at hslot
  case true =>
    rw [exec_writeBit, runCommand_of_ok _ hret hslot]
    rfl
  case false =>
    rw [exec_writeBit, runCommand_of_channelFailure _ hret hslot]
    rfl

/-- Settles O9: the three ends of `readBit`, each carried through the command. -/
theorem readBitThresholdsTheEcho : Obligations.ReadBitThresholdsTheEcho := by
  refine ⟨by decide, fun s hret => ⟨fun hsend => ?_, fun hsend hrecv => ?_, fun v hsend hrecv => ?_⟩⟩
  · rw [exec_readBit, runCommand_of_channelFailure _ hret (readBit_send_fails _ _ hsend)]
    rfl
  · rw [exec_readBit, runCommand_of_channelFailure _ hret (readBit_no_echo _ _ hsend hrecv)]
  · rw [exec_readBit, runCommand_of_ok _ hret (readBit_echo _ _ v hsend hrecv), sensedBit_setWidth]
    rfl

theorem toNat_encode_writeByte (v : Byte) : (encode (.writeByte v)).toNat = 0x0400 + v.toNat := by
  rw [encode, BitVec.toNat_append, ← Nat.shiftLeft_add_eq_or_of_lt (immediateOf (.writeByte v)).isLt]
  rfl

/-- Settles O10: `writeByte` from the command's own channel, whole and cut at its first failing send. -/
theorem writeByteSendsEightSlotsLsbFirst : Obligations.WriteByteSendsEightSlotsLsbFirst := by
  refine ⟨toNat_encode_writeByte, fun v s hret => ⟨fun hsend => ?_, fun i hi hsend hfail => ?_⟩⟩
  · rw [exec_writeByte, runCommand_of_ok _ hret (writeByte_ok _ v _ hsend)]
    rfl
  · rw [exec_writeByte, runCommand_of_channelFailure _ hret (writeByte_send_fails _ v _ i hi hsend hfail)]

/-- Settles O11: `readByte` from the command's own channel; the byte it gathers is the one with the sensed bits. -/
theorem readByteAssemblesLsbFirst : Obligations.ReadByteAssemblesLsbFirst := by
  refine ⟨by decide, fun s echo hret => ⟨fun v hsend hecho hbits => ?_, fun i hi hsend hecho hfail => ?_,
    fun i hi hsend hecho hnone => ?_⟩⟩
  · rw [exec_readByte, runCommand_of_ok _ hret (readByte_ok _ echo _ hsend hecho), gatherEchoes_eight hbits]
    rfl
  · rw [exec_readByte, runCommand_of_channelFailure _ hret (readByte_send_fails _ echo _ i hi hsend hecho hfail)]
  · rw [exec_readByte, runCommand_of_channelFailure _ hret (readByte_no_echo _ echo _ i hi hsend hecho hnone)]

end Sys2Proof.Machine

/-! ## Every command is a sequence of slots (rule R105) -/

namespace Sys2Proof.Machine

/-! A relation between the channel before and after that resets and bit slots have, and that composes. Every
sub-operation and every command has it, since they do nothing else to the channel. -/

/-- An operation leaves every channel related to what it makes of it. -/
def Op.Within {α : Type} (R : Channel → Channel → Prop) (o : Op α) : Prop := ∀ c, R c (o c).chan

/-- A relation between channels that composes and that the three kinds of slot have. -/
structure SlotRelation (p : Params) (R : Channel → Channel → Prop) : Prop where
  refl : ∀ c, R c c
  trans : ∀ {a b c}, R a b → R b c → R a c
  busReset : (busReset p).Within R
  writeBit : ∀ b, (writeBit p b).Within R
  readBit : (readBit p).Within R

namespace SlotRelation

variable {p : Params} {R : Channel → Channel → Prop} (hR : SlotRelation p R)
include hR

theorem pure {α : Type} (v : α) : (Op.pure v).Within R := hR.refl

theorem raise {α : Type} (k : ErrorKind) : (Op.raise k : Op α).Within R := hR.refl

theorem bind {α β : Type} {o : Op α} {f : α → Op β} (first : o.Within R) (second : ∀ v, (f v).Within R) :
    (o.bind f).Within R :=
  Op.bind_related R hR.trans o f first second

theorem loop {α : Type} {body : Nat → α → Op α} (turn : ∀ i v, (body i v).Within R) (i n : Nat) (v : α) :
    (Op.loop body i n v).Within R :=
  Op.loop_related R hR.refl hR.trans body turn i n v

theorem writeByte (v : Byte) : (writeByte p v).Within R :=
  hR.loop (fun i _ => hR.writeBit (v.getLsbD i)) 0 8 ()

theorem readByte : (readByte p).Within R :=
  hR.loop (fun _ _ => hR.bind hR.readBit fun _ => hR.pure _) 0 8 0

theorem resetOrFail : (resetOrFail p).Within R := by
  refine hR.bind hR.busReset fun present => ?_
  cases present
  · exact hR.raise _
  · exact hR.pure _

theorem readAddress : (readAddress p).Within R :=
  hR.bind hR.resetOrFail fun _ => hR.bind (hR.writeByte _) fun _ =>
    hR.loop (fun _ _ => hR.bind hR.readByte fun _ => hR.pure _) 0 8 0

theorem matchAddress (a : Word64) : (matchAddress p a).Within R :=
  hR.bind hR.resetOrFail fun _ => hR.bind (hR.writeByte _) fun _ =>
    hR.loop (fun k _ => hR.writeByte (byteLane a k)) 0 8 ()

theorem skipAddress : (skipAddress p).Within R :=
  hR.bind hR.resetOrFail fun _ => hR.writeByte _

theorem readPair : (readPair p).Within R :=
  hR.bind hR.readBit fun _ => hR.bind hR.readBit fun _ => hR.pure _

theorem replayPosition (i : Nat) (w : Walk) : (replayPosition p i w).Within R :=
  hR.bind hR.readPair fun _ => hR.bind (hR.writeBit _) fun _ => hR.pure _

theorem forcedBranch (q : Nat) (w : Walk) : (forcedBranch p q w).Within R := by
  refine hR.bind hR.readPair fun r => ?_
  split
  · exact hR.raise _
  · exact hR.bind (hR.writeBit _) fun _ => hR.pure _

theorem chooseBit (i : Nat) (b : Bool) (w : Walk) : (chooseBit p i b w).Within R :=
  hR.bind (hR.writeBit _) fun _ => hR.pure _

theorem resolvePosition (i : Nat) (w : Walk) : (resolvePosition p i w).Within R := by
  refine hR.bind hR.readPair fun r => ?_
  split
  · exact hR.raise _
  all_goals exact hR.chooseBit i _ _

theorem walkPositions (ssv : Bool) (addr disc : Word64) (ldi : BitVec 6) :
    (walkPositions p ssv addr disc ldi).Within R := by
  unfold Machine.walkPositions
  split
  · exact hR.bind (hR.loop hR.replayPosition _ _ _) fun _ => hR.bind (hR.forcedBranch _ _) fun _ =>
      hR.loop hR.resolvePosition _ _ _
  · exact hR.loop hR.resolvePosition _ _ _

theorem checkWalk (w : Walk) : (checkWalk w).Within R := by
  unfold Machine.checkWalk
  split
  · exact hR.pure _
  · exact hR.raise _

theorem deviceSearch (alarm ssv : Bool) (addr disc : Word64) (ldi : BitVec 6) :
    (deviceSearch p alarm ssv addr disc ldi).Within R := by
  unfold Machine.deviceSearch
  split
  · exact hR.pure _
  · refine hR.bind hR.busReset fun present => ?_
    split
    · exact hR.bind (hR.writeByte _) fun _ => hR.bind (hR.walkPositions _ _ _ _) hR.checkWalk
    · exact hR.pure _

end SlotRelation

/-- What a sub-operation makes of the channel is what its command makes of it, since no commit touches it (rule R38). -/
theorem Op.Within.runCommand {α : Type} {R : Channel → Channel → Prop} {s t : State} {o : Op α}
    {commit : α → State → State} (ho : o.Within R) (h : runCommand s o commit = .next t)
    (hcommit : ∀ v u, (commit v u).chan = u.chan) : R s.chan t.chan := by
  obtain ⟨v, -, rfl⟩ | ⟨k, -, rfl⟩ := runCommand_next h
  · rw [hcommit]
    exact ho s.chan
  · exact ho s.chan

@[simp] theorem commitSearch_chan (found : Option Walk) (s : State) : (commitSearch found s).chan = s.chan := by
  cases found <;> rfl

theorem chan_of_checksum_next {i : Instr} {n : BitVec 4} {s t : State} (hi : i = .crcCompute n ∨ i = .crcVerify n)
    (h : exec i s = .next t) : t.chan = s.chan := by
  obtain rfl | rfl := hi
  all_goals
    simp only [exec, execCrcCompute, execCrcVerify] at h
    split at h <;> cases h <;> rfl

/-- A command that answers a next state has every slot relation: its channel calls are slots. -/
theorem SlotRelation.exec {R : Channel → Channel → Prop} {i : Instr} {s t : State} (hR : SlotRelation s.params R)
    (h : exec i s = .next t) : R s.chan t.chan := by
  cases i with
  | reset => exact hR.busReset.runCommand h fun _ _ => rfl
  | writeBit b => exact (hR.writeBit b).runCommand h fun _ _ => rfl
  | readBit => exact hR.readBit.runCommand h fun _ _ => rfl
  | writeByte v => exact (hR.writeByte v).runCommand h fun _ _ => rfl
  | readByte => exact hR.readByte.runCommand h fun _ _ => rfl
  | crcCompute n =>
    rw [chan_of_checksum_next (.inl rfl) h]
    exact hR.refl s.chan
  | crcVerify n =>
    rw [chan_of_checksum_next (.inr rfl) h]
    exact hR.refl s.chan
  | readAddress => exact hR.readAddress.runCommand h fun _ _ => rfl
  | matchAddress => exact (hR.matchAddress s.addr).runCommand h fun _ _ => rfl
  | skipAddress => exact hR.skipAddress.runCommand h fun _ _ => rfl
  | search f => exact (hR.deviceSearch f s.ssv s.addr s.disc s.ldi).runCommand h commitSearch_chan

/-! The channel after a slot with an echo: one receive, unless the send failed. -/

theorem slot_receive_chan {α : Type} (r : Rate) (b : Byte) (f : Byte → α) (c : Channel) :
    (((slot r b).bind fun _ => receive.bind fun v => .pure (f v)) c).chan =
      if c.sendAhead 0 then c.advance 1 1 [.rate r, .flush, .send b true, .recv (c.recvAhead 0)]
      else c.advance 1 0 [.rate r, .flush, .send b false] := by
  cases hsend : c.sendAhead 0 <;> cases hrecv : c.recvAhead 0 <;>
    simp [Op.bind_apply, slot_apply, receive_apply, hsend, hrecv]

theorem busReset_chan (p : Params) (c : Channel) :
    (busReset p c).chan =
      if c.sendAhead 0 then c.advance 1 1 (resetSlot p (c.recvAhead 0))
      else c.advance 1 0 [.rate .slow, .flush, .send p.resetPattern false] :=
  slot_receive_chan .slow p.resetPattern (· != p.resetPattern) c

theorem readBit_chan (p : Params) (c : Channel) :
    (readBit p c).chan =
      if c.sendAhead 0 then c.advance 1 1 (readSlot (c.recvAhead 0)) else c.advance 1 0 readSlotCut :=
  slot_receive_chan .fast readByteOut (sensedBit p) c

/-! The relation of rule R105: what was added to the trace is slots. -/

/-- The trace grew by legal slots. -/
def growsBySlots (p : Params) (c c' : Channel) : Prop :=
  ∃ slots : List (List Event), c'.trace = c.trace ++ slots.flatten ∧ ∀ x ∈ slots, legalSlot p x = true

theorem growsBySlots_refl (p : Params) (c : Channel) : growsBySlots p c c := ⟨[], by simp⟩

theorem growsBySlots_trans {p : Params} {a b c : Channel} (hab : growsBySlots p a b) (hbc : growsBySlots p b c) :
    growsBySlots p a c := by
  obtain ⟨xs, hxs, hxsLegal⟩ := hab
  obtain ⟨ys, hys, hysLegal⟩ := hbc
  exact ⟨xs ++ ys, by simp [hys, hxs], fun x hx => (List.mem_append.mp hx).elim (hxsLegal x) (hysLegal x)⟩

theorem growsBySlots_advance {p : Params} {x : List Event} (h : legalSlot p x = true) (c : Channel) (n m : Nat) :
    growsBySlots p c (c.advance n m x) :=
  ⟨[x], by simp, by simpa using h⟩

@[simp] theorem legalSlot_writeSlot (p : Params) (b ok : Bool) : legalSlot p (writeSlot p b ok) = true := by
  cases b <;> simp [writeSlot, legalSlot]

@[simp] theorem legalSlot_readSlot (p : Params) (echo : Option Byte) : legalSlot p (readSlot echo) = true := rfl

@[simp] theorem legalSlot_readSlotCut (p : Params) : legalSlot p readSlotCut = true := by
  simp [readSlotCut, legalSlot]

@[simp] theorem legalSlot_resetSlot (p : Params) (echo : Option Byte) : legalSlot p (resetSlot p echo) = true := by
  simp [resetSlot, legalSlot]

theorem legalSlot_resetSlotCut (p : Params) :
    legalSlot p [.rate .slow, .flush, .send p.resetPattern false] = true := by
  simp [legalSlot]

theorem growsBySlots_busReset (p : Params) (c : Channel) : growsBySlots p c (busReset p c).chan := by
  rw [busReset_chan]
  split
  · exact growsBySlots_advance (legalSlot_resetSlot p _) c 1 1
  · exact growsBySlots_advance (legalSlot_resetSlotCut p) c 1 0

theorem growsBySlots_writeBit (p : Params) (b : Bool) (c : Channel) : growsBySlots p c (writeBit p b c).chan := by
  rw [writeBit_apply]
  exact growsBySlots_advance (legalSlot_writeSlot p b _) c 1 0

theorem growsBySlots_readBit (p : Params) (c : Channel) : growsBySlots p c (readBit p c).chan := by
  rw [readBit_chan]
  split
  · exact growsBySlots_advance (legalSlot_readSlot p _) c 1 1
  · exact growsBySlots_advance (legalSlot_readSlotCut p) c 1 0

theorem slotRelation_growsBySlots (p : Params) : SlotRelation p (growsBySlots p) where
  refl := growsBySlots_refl p
  trans := growsBySlots_trans
  busReset := growsBySlots_busReset p
  writeBit := growsBySlots_writeBit p
  readBit := growsBySlots_readBit p

/-- Settles O42: growing by slots is a slot relation, so every command has it. -/
theorem traceIsMadeOfSlots : Obligations.TraceIsMadeOfSlots :=
  fun _ s _ h => (slotRelation_growsBySlots s.params).exec h

end Sys2Proof.Machine

/-! ## The integrity check (rules R120, R121) -/

namespace Sys2Proof.Machine

/-- A word as a number: `OPC` above the eight bits of `IMM` (rule R80). -/
theorem toNat_encode (i : Instr) : (encode i).toNat = (opcodeOf i).toNat * 2 ^ 8 + (immediateOf i).toNat := by
  rw [encode, BitVec.toNat_append, ← Nat.shiftLeft_add_eq_or_of_lt (immediateOf i).isLt, Nat.shiftLeft_eq]

/-- The immediate of format L is the length itself (rule R81). -/
theorem toNat_setWidth_length (n : BitVec 4) : (n.setWidth 8).toNat = n.toNat :=
  BitVec.toNat_setWidth_of_le (by decide)

theorem lengthOk_iff (n : BitVec 4) : lengthOk n = true ↔ n.toNat ≤ 9 := decide_eq_true_iff

/-! What the two commands do on a legal length. -/

theorem exec_crcCompute {n : BitVec 4} (s : State) (hn : n.toNat ≤ 9) :
    exec (.crcCompute n) s = .next ((s.setData (crc8 (bufPrefix s n))).setStatus 0x00) :=
  if_pos ((lengthOk_iff n).mpr hn)

theorem exec_crcVerify {n : BitVec 4} (s : State) (hn : n.toNat ≤ 9) :
    exec (.crcVerify n) s = .next (s.setStatus (okStatus (verify (bufPrefix s n)))) :=
  if_pos ((lengthOk_iff n).mpr hn)

/-- `STATUS` after a comparison: FLAG tells whether the two are equal (rules R25, R32). -/
theorem okStatus_beq (a b : Byte) : okStatus (a == b) = if a = b then 0x10 else 0x00 := by
  by_cases h : a = b
  · rw [if_pos h, beq_iff_eq.mpr h, okStatus_true]
  · rw [if_neg h, beq_eq_false_iff_ne.mpr h, okStatus_false]

/-! The two cases of `verify` (rule R121). -/

@[simp] theorem verify_nil : verify [] = false := rfl

@[simp] theorem verify_append_singleton (block : List Byte) (last : Byte) :
    verify (block ++ [last]) = (crc8 block == last) := by
  simp [verify]

/-- Settles O12: a legal length reaches the command's one commit, which writes `DATA` and `STATUS`. -/
theorem crcComputeLeavesTheChecksum : Obligations.CrcComputeLeavesTheChecksum := by
  intro n s hn
  constructor
  · rw [toNat_encode, opcodeOf, immediateOf, toNat_setWidth_length]
    simp
  · exact exec_crcCompute s hn

/-- Settles O14: the block is empty or ends in a byte, and `verify` has an equation for each. -/
theorem crcVerifyComparesTheLastByte : Obligations.CrcVerifyComparesTheLastByte := by
  intro n s hn
  refine ⟨?_, fun hempty => ?_, fun block last hblock => ?_⟩
  · rw [toNat_encode, opcodeOf, immediateOf, toNat_setWidth_length]
    simp
  · rw [exec_crcVerify s hn, bufPrefix, hempty, verify_nil, okStatus_false, State.setStatus]
  · rw [exec_crcVerify s hn, bufPrefix, hblock, verify_append_singleton, okStatus_beq, State.setStatus]

end Sys2Proof.Machine

/-! ## ROM addressing (rules R130 to R134) -/

namespace Sys2Proof.Machine

/-! One sub-operation after another, each described by how far it moves the channel. -/

/-- What a sequence does to the channel, from what its two parts do to it. -/
theorem Op.bind_of_advance {α β : Type} {o : Op α} {f : α → Op β} {c : Channel} {v : α} {n m n' m' : Nat}
    {es es' : List Event} {r : Except ErrorKind β} (first : o c = ⟨.ok v, c.advance n m es⟩)
    (second : f v (c.advance n m es) = ⟨r, (c.advance n m es).advance n' m' es'⟩) :
    o.bind f c = ⟨r, c.advance (n + n') (m + m') (es ++ es')⟩ := by
  rw [Op.bind_of_ok first, second, Channel.advance_advance]

/-- Successful sends ahead are still ahead once the first of them are made. -/
theorem sendsSucceed_advance {c : Channel} {n k : Nat} (h : sendsSucceed c (n + k)) (m : Nat) (es : List Event) :
    sendsSucceed (c.advance n m es) k := fun j hj => by
  simpa using h (n + j) (by omega)

/-- Echoes ahead are still ahead once the receives before them are made. -/
theorem echoesAre_advance {c : Channel} {m k : Nat} {echo : Nat → Byte}
    (h : ∀ j < k, c.recvAhead (m + j) = some (echo j)) (n : Nat) (es : List Event) :
    echoesAre (c.advance n m es) k echo := fun j hj => by
  simpa using h j hj

/-! More slots after slots. -/

theorem writeSlots_add (p : Params) (m n : Nat) (bit : Nat → Bool) :
    writeSlots p (m + n) bit = writeSlots p m bit ++ writeSlots p n fun j => bit (m + j) := by
  simp [writeSlots, List.range_add, List.flatMap_map]

theorem writeSlots_congr (p : Params) {n : Nat} {bit bit' : Nat → Bool} (h : ∀ j < n, bit j = bit' j) :
    writeSlots p n bit = writeSlots p n bit' :=
  List.flatMap_congr fun j hj => by rw [h j (List.mem_range.mp hj)]

theorem readSlots_add (m n : Nat) (echo : Nat → Byte) :
    readSlots (m + n) echo = readSlots m echo ++ readSlots n fun j => echo (m + j) := by
  simp [readSlots, List.range_add, List.flatMap_map]

/-! The reset at the head (rules R133, R134), from any channel. -/

theorem resetOrFail_send_fails (p : Params) (c : Channel) (h : c.sendAhead 0 = false) :
    resetOrFail p c = ⟨.error .channelFailure, c.advance 1 0 [.rate .slow, .flush, .send p.resetPattern false]⟩ :=
  Op.bind_of_error (busReset_send_fails p c h)

theorem resetOrFail_no_echo (p : Params) (c : Channel) (hsend : c.sendAhead 0 = true) (hnone : c.recvAhead 0 = none) :
    resetOrFail p c = ⟨.error .channelFailure, c.advance 1 1 (resetSlot p none)⟩ :=
  Op.bind_of_error (busReset_no_echo p c hsend hnone)

theorem resetOrFail_no_presence (p : Params) (c : Channel) (hsend : c.sendAhead 0 = true)
    (hrecv : c.recvAhead 0 = some p.resetPattern) :
    resetOrFail p c = ⟨.error .resetFailure, c.advance 1 1 (resetSlot p (some p.resetPattern))⟩ := by
  rw [resetOrFail, Op.bind_of_ok (busReset_echo p c p.resetPattern hsend hrecv)]
  simp

theorem resetOrFail_present (p : Params) (c : Channel) (v : Byte) (hsend : c.sendAhead 0 = true)
    (hrecv : c.recvAhead 0 = some v) (hv : v ≠ p.resetPattern) :
    resetOrFail p c = ⟨.ok (), c.advance 1 1 (resetSlot p (some v))⟩ := by
  rw [resetOrFail, Op.bind_of_ok (busReset_echo p c v hsend hrecv)]
  simp [hv]

/-! What `exec` calls for the three commands (rule R83). -/

theorem exec_readAddress (s : State) :
    exec .readAddress s = runCommand s (readAddress s.params) fun a t => (t.setAddr a).setStatus (okStatus false) := rfl

theorem exec_matchAddress (s : State) :
    exec .matchAddress s = runCommand s (matchAddress s.params s.addr) fun _ t => t.setStatus (okStatus false) := rfl

theorem exec_skipAddress (s : State) :
    exec .skipAddress s = runCommand s (skipAddress s.params) fun _ t => t.setStatus (okStatus false) := rfl

/-! A command that begins with the reset fails with it. -/

theorem runCommand_of_resetFailure {α : Type} {s : State} {o : Op α} {c : Channel} (commit : α → State → State)
    (hret : everyCallReturns s) (h : o s.chan = ⟨.error .resetFailure, c⟩) :
    runCommand s o commit = .next { s with status := 0x02, chan := c } := by
  rw [runCommand_returns s o commit hret, settle_error h]
  rfl

theorem addressingHeadFails_of_exec {α : Type} {i : Instr} {s : State} {f : Unit → Op α}
    {commit : α → State → State} (hret : everyCallReturns s) (hexec : exec i s = runCommand s ((resetOrFail s.params).bind f) commit) :
    addressingHeadFails i s := by
  refine ⟨fun hsend hrecv => ?_, fun hsend => ?_, fun hsend hnone => ?_⟩ <;> rw [hexec]
  · exact runCommand_of_resetFailure _ hret (Op.bind_of_error (resetOrFail_no_presence _ _ hsend hrecv))
  · exact runCommand_of_channelFailure _ hret (Op.bind_of_error (resetOrFail_send_fails _ _ hsend))
  · exact runCommand_of_channelFailure _ hret (Op.bind_of_error (resetOrFail_no_echo _ _ hsend hnone))

/-- Each of the three commands begins with the reset. -/
theorem addressing_headFails {i : Instr} {s : State} (hi : i ∈ [Instr.readAddress, .matchAddress, .skipAddress])
    (hret : everyCallReturns s) : addressingHeadFails i s := by
  simp only [List.mem_cons, List.not_mem_nil, or_false] at hi
  obtain rfl | rfl | rfl := hi
  · exact addressingHeadFails_of_exec hret (exec_readAddress s)
  · exact addressingHeadFails_of_exec hret (exec_matchAddress s)
  · exact addressingHeadFails_of_exec hret (exec_skipAddress s)

/-- Settles O22: the first of the three ways in which the head fails. -/
theorem addressingNeedsPresence : Obligations.AddressingNeedsPresence := by
  intro i hi s hret
  obtain ⟨noPresence, -, -⟩ := addressing_headFails hi hret
  exact noPresence

/-- Settles O23: the other two ways in which the head fails. -/
theorem addressingResetChannelFailure : Obligations.AddressingResetChannelFailure := by
  intro i hi s hret
  obtain ⟨-, sendFails, noEcho⟩ := addressing_headFails hi hret
  exact ⟨sendFails, noEcho⟩

/-! Bytes written one after another. `bit` gives the bits of all of them, those of byte `k` from `8 * k` on
(rule R61). -/

section WriteBytes

variable (p : Params) {byte : Nat → Byte} {bit : Nat → Bool} {n : Nat} (c : Channel)
  (hbit : ∀ k < n, ∀ j < 8, (byte k).getLsbD j = bit (8 * k + j))
include hbit

/-- The byte that follows `k` successfully written ones. -/
theorem writeByte_after_writeSlots {k : Nat} (hk : k < n) (h : sendsSucceed c (8 * k + 8)) :
    writeByte p (byte k) (c.advance (8 * k) 0 (writeSlots p (8 * k) bit)) =
      ⟨.ok (), c.advance (8 * (k + 1)) 0 (writeSlots p (8 * (k + 1)) bit)⟩ := by
  rw [writeByte_ok p _ _ (sendsSucceed_advance h _ _), Channel.advance_advance, writeSlots_congr p (hbit k hk),
    ← writeSlots_add]
  rfl

theorem writeBytes_ok (h : sendsSucceed c (8 * n)) :
    Op.loop (fun k _ => writeByte p (byte k)) 0 n () c =
      ⟨.ok (), c.advance (8 * n) 0 (writeSlots p (8 * n) bit)⟩ := by
  have hloop := Op.loop_of_turns (body := fun k _ => writeByte p (byte k)) (i := 0) (n := n) (fun _ => ())
    (fun k => c.advance (8 * k) 0 (writeSlots p (8 * k) bit)) fun k hk => by
      simpa using writeByte_after_writeSlots p c hbit hk fun j hj => h j (by omega)
  simpa using hloop

/-- The first failing send ends the bytes, in the middle of the byte it belongs to. -/
theorem writeBytes_send_fails {i : Nat} (hi : i < 8 * n) (h : sendsSucceed c i) (hfail : c.sendAhead i = false) :
    Op.loop (fun k _ => writeByte p (byte k)) 0 n () c =
      ⟨.error .channelFailure, c.advance (i + 1) 0 (writeSlots p i bit ++ writeSlot p (bit i) false)⟩ := by
  obtain ⟨q, r, hr, rfl⟩ : ∃ q r, r < 8 ∧ i = 8 * q + r :=
    ⟨i / 8, i % 8, Nat.mod_lt i (by decide), (Nat.div_add_mod i 8).symm⟩
  have hq : q < n := by omega
  have hloop := Op.loop_of_turn_error (body := fun k _ => writeByte p (byte k)) (i := 0) (fun _ => ())
    (fun k => c.advance (8 * k) 0 (writeSlots p (8 * k) bit)) hq (fun k hk => by
      simpa using writeByte_after_writeSlots p c hbit (hk.trans hq) fun j hj => h j (by omega)) (by
      rw [Nat.zero_add]
      exact writeByte_send_fails p (byte q) _ r hr (sendsSucceed_advance h _ _) (by simpa using hfail))
  have hslots := writeSlots_congr p fun j (hj : j < r) => hbit q hq j (hj.trans hr)
  rw [writeSlots_add, ← hslots, ← hbit q hq r hr]
  simpa [Nat.add_assoc] using hloop

end WriteBytes

/-! Bytes read one after another into a word (rule R130). -/

/-- The word whose first `k` bytes are those that the echoes stand for, gathered as `read_address` does. -/
def gatherAddress (p : Params) (echo : Nat → Byte) : Nat → Word64
  | 0 => 0
  | k + 1 => setByteLane (gatherAddress p echo k) k (gatherEchoes p (fun j => echo (8 * k + j)) 8)

@[simp] theorem gatherAddress_zero (p : Params) (echo : Nat → Byte) : gatherAddress p echo 0 = 0 := rfl

theorem getLsbD_gatherAddress (p : Params) (echo : Nat → Byte) (k i : Nat) (h : i < 64) :
    (gatherAddress p echo k).getLsbD i = (decide (i < 8 * k) && echoBit p (echo i)) := by
  induction k with
  | zero => simp
  | succ k ih =>
    rw [gatherAddress, getLsbD_setByteLane _ _ _ _ h, ih]
    by_cases hlane : 8 * k ≤ i ∧ i < 8 * k + 8
    · obtain ⟨hlo, hhi⟩ := hlane
      rw [if_pos ⟨hlo, hhi⟩, getLsbD_gatherEchoes p _ 8 _ (by omega), Nat.add_sub_cancel' hlo]
      simp [show i - 8 * k < 8 by omega, show i < 8 * (k + 1) by omega]
    · have hiff : i < 8 * (k + 1) ↔ i < 8 * k := by omega
      simp [hlane, hiff]

/-- The 64 echoes gather the one word whose bits they stand for. -/
theorem gatherAddress_eight {p : Params} {echo : Nat → Byte} {a : Word64}
    (h : ∀ i < 64, a.getLsbD i = echoBit p (echo i)) : gatherAddress p echo 8 = a := by
  refine BitVec.eq_of_getLsbD_eq fun i hi => ?_
  rw [getLsbD_gatherAddress p echo 8 i hi, h i hi, decide_eq_true hi, Bool.true_and]

section ReadBytes

variable (p : Params) (echo : Nat → Byte) (c : Channel)

/-- The byte that follows `k` successfully read ones, put in lane `k`. -/
theorem readByteInto_after_readSlots {k : Nat} (hsend : sendsSucceed c (8 * k + 8))
    (hecho : echoesAre c (8 * k + 8) echo) :
    readByteInto p k (gatherAddress p echo k) (c.advance (8 * k) (8 * k) (readSlots (8 * k) echo)) =
      ⟨.ok (gatherAddress p echo (k + 1)),
        c.advance (8 * (k + 1)) (8 * (k + 1)) (readSlots (8 * (k + 1)) echo)⟩ := by
  have hread := readByte_ok p (fun j => echo (8 * k + j)) (c.advance (8 * k) (8 * k) (readSlots (8 * k) echo))
    (sendsSucceed_advance hsend _ _) (echoesAre_advance (fun j hj => hecho (8 * k + j) (by omega)) _ _)
  rw [Channel.advance_advance, ← readSlots_add] at hread
  exact Op.bind_of_ok hread

theorem readBytes_ok (hsend : sendsSucceed c 64) (hecho : echoesAre c 64 echo) :
    Op.loop (readByteInto p) 0 8 0 c = ⟨.ok (gatherAddress p echo 8), c.advance 64 64 (readSlots 64 echo)⟩ := by
  have hloop := Op.loop_of_turns (body := readByteInto p) (i := 0) (n := 8) (gatherAddress p echo)
    (fun k => c.advance (8 * k) (8 * k) (readSlots (8 * k) echo)) fun k hk => by
      simpa using readByteInto_after_readSlots p echo c (fun j hj => hsend j (by omega)) fun j hj => hecho j (by omega)
  simpa using hloop

/-- A read slot that fails after `i` successful ones ends the bytes, whatever made it fail. -/
theorem readBytes_slot_fails (c' : Channel) (i : Nat) (hi : i < 64) (hsend : sendsSucceed c i)
    (hecho : echoesAre c i echo)
    (hfail : readBit p (c.advance i i (readSlots i echo)) = ⟨.error .channelFailure, c'⟩) :
    Op.loop (readByteInto p) 0 8 0 c = ⟨.error .channelFailure, c'⟩ := by
  obtain ⟨q, r, hr, rfl⟩ : ∃ q r, r < 8 ∧ i = 8 * q + r :=
    ⟨i / 8, i % 8, Nat.mod_lt i (by decide), (Nat.div_add_mod i 8).symm⟩
  have hbyte := readByte_slot_fails p (fun j => echo (8 * q + j))
    (c.advance (8 * q) (8 * q) (readSlots (8 * q) echo)) c' r hr (sendsSucceed_advance hsend _ _)
    (echoesAre_advance (fun j hj => hecho (8 * q + j) (by omega)) _ _)
    (by rwa [Channel.advance_advance, ← readSlots_add])
  have hloop := Op.loop_of_turn_error (body := readByteInto p) (i := 0) (n := 8) (gatherAddress p echo)
    (fun k => c.advance (8 * k) (8 * k) (readSlots (8 * k) echo)) (show q < 8 by omega) (fun k hk => by
      simpa using readByteInto_after_readSlots p echo c (fun j hj => hsend j (by omega)) fun j hj => hecho j (by omega))
    (Op.bind_of_error hbyte)
  simpa using hloop

theorem readBytes_send_fails (i : Nat) (hi : i < 64) (hsend : sendsSucceed c i) (hecho : echoesAre c i echo)
    (hfail : c.sendAhead i = false) :
    Op.loop (readByteInto p) 0 8 0 c =
      ⟨.error .channelFailure, c.advance (i + 1) i (readSlots i echo ++ readSlotCut)⟩ := by
  refine readBytes_slot_fails p echo c _ i hi hsend hecho ?_
  rw [readBit_send_fails p _ (by simpa using hfail), Channel.advance_advance]
  rfl

theorem readBytes_no_echo (i : Nat) (hi : i < 64) (hsend : sendsSucceed c (i + 1)) (hecho : echoesAre c i echo)
    (hnone : c.recvAhead i = none) :
    Op.loop (readByteInto p) 0 8 0 c =
      ⟨.error .channelFailure, c.advance (i + 1) (i + 1) (readSlots i echo ++ readSlot none)⟩ := by
  refine readBytes_slot_fails p echo c _ i hi (fun k hk => hsend k (Nat.lt_succ_of_lt hk)) hecho ?_
  rw [readBit_no_echo p _ (by simpa using hsend i i.lt_succ_self) (by simpa using hnone), Channel.advance_advance]

end ReadBytes

/-! The three sub-operations, from any channel on which a device answers the reset. -/

/-- The nine bytes that `match_address` writes: the command byte, then those of the address (rule R131). -/
def matchByte (p : Params) (a : Word64) : Nat → Byte
  | 0 => p.cmdMatchAddress
  | k + 1 => byteLane a k

/-- `match_address` is the reset and nine bytes (rule R131). -/
theorem matchAddress_eq (p : Params) (a : Word64) :
    matchAddress p a = (resetOrFail p).bind fun _ => Op.loop (fun k _ => writeByte p (matchByte p a k)) 0 9 () := rfl

/-- The bits of the nine bytes are the 72 bits of rule R131. -/
theorem getLsbD_matchByte (s : State) (k j : Nat) (hj : j < 8) :
    (matchByte s.params s.addr k).getLsbD j = matchBit s (8 * k + j) := by
  cases k with
  | zero => simp [matchByte, matchBit, hj]
  | succ k =>
    rw [matchByte, matchBit, getLsbD_byteLane, if_neg (by omega), decide_eq_true hj, Bool.true_and]
    congr 1
    omega

section DeviceAnswers

variable {p : Params} {c : Channel} {presence : Byte} (hrecv : c.recvAhead 0 = some presence)
  (hpresent : presence ≠ p.resetPattern)
include hrecv hpresent

/-- What follows the reset runs on the channel that its one send and one receive leave. -/
theorem resetOrFail_bind {α : Type} {f : Unit → Op α} {n m : Nat} {es : List Event} {r : Except ErrorKind α}
    (hsend : c.sendAhead 0 = true)
    (rest : f () (c.advance 1 1 (resetSlot p (some presence))) =
      ⟨r, (c.advance 1 1 (resetSlot p (some presence))).advance n m es⟩) :
    (resetOrFail p).bind f c = ⟨r, c.advance (n + 1) (m + 1) (resetSlot p (some presence) ++ es)⟩ := by
  rw [Op.bind_of_advance (resetOrFail_present p c presence hsend hrecv hpresent) rest, Nat.add_comm 1 n,
    Nat.add_comm 1 m]

theorem skipAddress_ok (h : sendsSucceed c 9) :
    skipAddress p c = ⟨.ok (), c.advance 9 1
      (resetSlot p (some presence) ++ writeSlots p 8 fun j => p.cmdSkipAddress.getLsbD j)⟩ :=
  resetOrFail_bind hrecv hpresent (h 0 (by decide)) (writeByte_ok p _ _ (sendsSucceed_advance (n := 1) h _ _))

theorem skipAddress_send_fails {i : Nat} (hi : i < 8) (h : sendsSucceed c (i + 1))
    (hfail : c.sendAhead (i + 1) = false) :
    skipAddress p c = ⟨.error .channelFailure, c.advance (i + 2) 1
      (resetSlot p (some presence) ++ (writeSlots p i (fun j => p.cmdSkipAddress.getLsbD j) ++
        writeSlot p (p.cmdSkipAddress.getLsbD i) false))⟩ := by
  rw [Nat.add_comm] at h hfail
  exact resetOrFail_bind hrecv hpresent (h 0 (by omega))
    (writeByte_send_fails p _ _ i hi (sendsSucceed_advance h _ _) (by simpa using hfail))

theorem matchAddress_ok {a : Word64} {bit : Nat → Bool}
    (hbit : ∀ k < 9, ∀ j < 8, (matchByte p a k).getLsbD j = bit (8 * k + j)) (h : sendsSucceed c 73) :
    matchAddress p a c = ⟨.ok (), c.advance 73 1 (resetSlot p (some presence) ++ writeSlots p 72 bit)⟩ := by
  rw [matchAddress_eq]
  exact resetOrFail_bind hrecv hpresent (h 0 (by decide))
    (writeBytes_ok p _ hbit (sendsSucceed_advance (n := 1) h _ _))

theorem matchAddress_send_fails {a : Word64} {bit : Nat → Bool}
    (hbit : ∀ k < 9, ∀ j < 8, (matchByte p a k).getLsbD j = bit (8 * k + j)) {i : Nat} (hi : i < 72)
    (h : sendsSucceed c (i + 1)) (hfail : c.sendAhead (i + 1) = false) :
    matchAddress p a c = ⟨.error .channelFailure, c.advance (i + 2) 1
      (resetSlot p (some presence) ++ (writeSlots p i bit ++ writeSlot p (bit i) false))⟩ := by
  rw [Nat.add_comm] at h hfail
  rw [matchAddress_eq]
  exact resetOrFail_bind hrecv hpresent (h 0 (by omega))
    (writeBytes_send_fails p _ hbit hi (sendsSucceed_advance h _ _) (by simpa using hfail))

theorem readAddress_command_fails {i : Nat} (hi : i < 8) (h : sendsSucceed c (i + 1))
    (hfail : c.sendAhead (i + 1) = false) :
    readAddress p c = ⟨.error .channelFailure, c.advance (i + 2) 1
      (resetSlot p (some presence) ++ (writeSlots p i (fun j => p.cmdReadAddress.getLsbD j) ++
        writeSlot p (p.cmdReadAddress.getLsbD i) false))⟩ := by
  rw [Nat.add_comm] at h hfail
  exact resetOrFail_bind hrecv hpresent (h 0 (by omega)) (Op.bind_of_error
    (writeByte_send_fails p _ _ i hi (sendsSucceed_advance h _ _) (by simpa using hfail)))

/-- The reads of `read_address` run on the channel that the reset and the command byte leave. -/
theorem readAddress_of_reads {n m : Nat} {es : List Event} {r : Except ErrorKind Word64} (h : sendsSucceed c 9)
    (reads : ∀ head : List Event, Op.loop (readByteInto p) 0 8 0 (c.advance 9 1 head) =
      ⟨r, (c.advance 9 1 head).advance n m es⟩) :
    readAddress p c = ⟨r, c.advance (9 + n) (m + 1)
      (resetSlot p (some presence) ++ writeSlots p 8 (fun j => p.cmdReadAddress.getLsbD j) ++ es)⟩ := by
  have hcommand := writeByte_ok p p.cmdReadAddress (c.advance 1 1 (resetSlot p (some presence)))
    (sendsSucceed_advance (n := 1) h _ _)
  have hreset := resetOrFail_present p c presence (h 0 (by decide)) hrecv hpresent
  rw [readAddress, Op.bind_of_ok hreset, Op.bind_of_ok hcommand, Channel.advance_advance, reads,
    Channel.advance_advance, Nat.add_comm m 1]

end DeviceAnswers

/-- Settles O21: the 8 write slots of the command byte from the channel that the reset leaves. -/
theorem skipAddressSendsTheCommand : Obligations.SkipAddressSendsTheCommand := by
  refine ⟨by decide, fun s hret => ⟨addressing_headFails (by decide) hret, fun v hrecv hv => ⟨fun hsend => ?_,
    fun i hi hsend hfail => ?_⟩⟩⟩
  · rw [exec_skipAddress, runCommand_of_ok _ hret (skipAddress_ok hrecv hv hsend)]
    rfl
  · rw [exec_skipAddress, runCommand_of_channelFailure _ hret (skipAddress_send_fails hrecv hv hi hsend hfail),
      List.append_assoc]

/-- Settles O20: command byte and address are nine bytes, whose bits are the 72 of `matchBit`. -/
theorem matchAddressSendsTheAddress : Obligations.MatchAddressSendsTheAddress := by
  refine ⟨by decide, fun s hret => ⟨addressing_headFails (by decide) hret, fun v hrecv hv => ?_⟩⟩
  have hbit : ∀ k < 9, ∀ j < 8, (matchByte s.params s.addr k).getLsbD j = matchBit s (8 * k + j) :=
    fun k _ j hj => getLsbD_matchByte s k j hj
  refine ⟨fun hsend => ?_, fun i hi hsend hfail => ?_⟩
  · rw [exec_matchAddress, runCommand_of_ok _ hret (matchAddress_ok hrecv hv hbit hsend)]
    rfl
  · rw [exec_matchAddress,
      runCommand_of_channelFailure _ hret (matchAddress_send_fails hrecv hv hbit hi hsend hfail), List.append_assoc]

/-- Settles O19: the command byte and then the 64 echoes, gathered byte by byte into the one word with their bits. -/
theorem readAddressAssemblesTheAddress : Obligations.ReadAddressAssemblesTheAddress := by
  have hten (i : Nat) : 10 + i = 9 + (i + 1) := by omega
  refine ⟨by decide, fun s hret => ⟨addressing_headFails (by decide) hret, fun v hrecv hv =>
    ⟨fun i hi hsend hfail => ?_, fun echo => ⟨fun a hsend hecho hbits => ?_, fun i hi hsend hecho hfail => ?_,
      fun i hi hsend hecho hnone => ?_⟩⟩⟩⟩
  · rw [exec_readAddress,
      runCommand_of_channelFailure _ hret (readAddress_command_fails hrecv hv hi hsend hfail), List.append_assoc]
  · simp only [Nat.add_comm _ 1] at hecho
    have hread := readAddress_of_reads hrecv hv (fun k hk => hsend k (by omega)) fun head =>
      readBytes_ok s.params echo _ (sendsSucceed_advance (n := 9) hsend 1 head) (echoesAre_advance hecho 9 head)
    rw [exec_readAddress, runCommand_of_ok _ hret hread, gatherAddress_eight hbits]
    rfl
  · simp only [Nat.add_comm _ 1] at hecho
    have hread := readAddress_of_reads hrecv hv (fun k hk => hsend k (by omega)) fun head =>
      readBytes_send_fails s.params echo _ i hi (sendsSucceed_advance hsend 1 head) (echoesAre_advance hecho 9 head)
        (by simpa using hfail)
    rw [exec_readAddress, runCommand_of_channelFailure _ hret hread, ← List.append_assoc, hten]
  · simp only [Nat.add_comm _ 1] at hecho
    have hread := readAddress_of_reads hrecv hv (fun k hk => hsend k (by omega)) fun head =>
      readBytes_no_echo s.params echo _ i hi (sendsSucceed_advance (hten i ▸ hsend) 1 head)
        (echoesAre_advance hecho 9 head) (by simpa [Nat.add_comm] using hnone)
    rw [exec_readAddress, runCommand_of_channelFailure _ hret hread, ← List.append_assoc, hten]

end Sys2Proof.Machine

/-! ## Device search (rules R140 to R149) -/

namespace Sys2Proof.Machine

/-! What `exec` calls for `SEARCH` (rule R83), and its two beginnings (rules R141, R142). -/

theorem exec_search (f : Bool) (s : State) :
    exec (.search f) s = runCommand s (deviceSearch s.params f s.ssv s.addr s.disc s.ldi) commitSearch := rfl

/-- Steps 3 to 7 of a search, from what its reset reported (rules R142 to R149). -/
def searchAfterReset (s : State) (f present : Bool) : Op (Option Walk) :=
  if present then
    (writeByte s.params (searchCommandByte s.params f)).bind fun _ =>
      (walkPositions s.params s.ssv s.addr s.disc s.ldi).bind checkWalk
  else .pure none

theorem deviceSearch_of_exhausted (f : Bool) {s : State} (hssv : s.ssv = true) (hdisc : s.disc = 0) :
    deviceSearch s.params f s.ssv s.addr s.disc s.ldi = .pure none := by
  simp [deviceSearch, hssv, hdisc]

theorem deviceSearch_of_not_exhausted (f : Bool) {s : State} (h : ¬(s.ssv = true ∧ s.disc = 0)) :
    deviceSearch s.params f s.ssv s.addr s.disc s.ldi = (busReset s.params).bind (searchAfterReset s f) :=
  if_neg (by simpa using h)

/-! A command that makes no send stops on none, and a search after its reset unmakes none (rules R72, R141). -/

theorem hangs_self (c : Channel) : hangs c c = false := by
  unfold hangs
  split
  · rfl
  · next n _ =>
    by_cases h : c.sends ≤ n
    · simp [Nat.not_lt.mpr h]
    · simp [h]

/-- A command that leaves the channel alone ends whatever the channel is. -/
theorem runCommand_pure {α : Type} (s : State) (v : α) (commit : α → State → State) :
    runCommand s (.pure v) commit = .next (commit v s) := by
  simp only [runCommand, Op.pure_apply, hangs_self]
  rfl

/-- Sends are only ever added. -/
theorem slotRelation_sends_le (p : Params) : SlotRelation p fun c c' => c.sends ≤ c'.sends where
  refl _ := le_rfl
  trans := le_trans
  busReset c := by
    rw [busReset_chan]
    split <;> exact Nat.le_add_right _ _
  writeBit b c := by
    rw [writeBit_apply]
    exact Nat.le_add_right _ _
  readBit c := by
    rw [readBit_chan]
    split <;> exact Nat.le_add_right _ _

theorem busReset_sends (p : Params) (c : Channel) : (busReset p c).chan.sends = c.sends + 1 := by
  rw [busReset_chan]
  split <;> rfl

theorem searchAfterReset_sends_le (s : State) (f present : Bool) :
    (searchAfterReset s f present).Within fun c c' => c.sends ≤ c'.sends := by
  have hR := slotRelation_sends_le s.params
  cases present
  · exact hR.pure _
  · exact hR.bind (hR.writeByte _) fun _ => hR.bind (hR.walkPositions _ _ _ _) hR.checkWalk

/-- The reset of a search that is not exhausted is its first send. -/
theorem reset_bind_searchAfterReset_sends_lt (s : State) (f : Bool) :
    ((busReset s.params).bind (searchAfterReset s f)).Within fun c c' => c.sends < c'.sends := by
  intro c
  have hreset := busReset_sends s.params c
  obtain ⟨present, c', h, e⟩ | ⟨k, c', h, e⟩ := Op.bind_cases (busReset s.params) (searchAfterReset s f) c
  all_goals rw [h] at hreset; simp only [e]
  · exact (Nat.lt_of_succ_le hreset.ge).trans_le (searchAfterReset_sends_le s f present c')
  · exact Nat.lt_of_succ_le hreset.ge

/-- Settles O24: an exhausted search is `pure none`; any other begins with the one send of its reset. -/
theorem searchExhaustedTouchesNoBus : Obligations.SearchExhaustedTouchesNoBus := by
  refine fun f s => ⟨fun hssv hdisc => ?_, fun hssv hret => ?_⟩
  · rw [exec_search, deviceSearch_of_exhausted f hssv hdisc, runCommand_pure]
    rfl
  · rw [exec_search, deviceSearch_of_not_exhausted f (by simp [hssv])]
    have hnext := runCommand_returns s ((busReset s.params).bind (searchAfterReset s f)) commitSearch hret
    exact ⟨_, hnext, (reset_bind_searchAfterReset_sends_lt s f).runCommand hnext commitSearch_chan⟩

/-- Settles O25: the three ends of `busReset` other than presence; none of them looks at the Search State. -/
theorem searchResetOutcomes : Obligations.SearchResetOutcomes := by
  refine fun f s hret hnot => ⟨fun hsend hrecv => ?_, fun hsend => ?_, fun hsend hrecv => ?_⟩
  all_goals rw [exec_search, deviceSearch_of_not_exhausted f hnot]
  · have hreset := busReset_echo s.params _ _ hsend hrecv
    rw [bne_self_eq_false] at hreset
    have hend : (busReset s.params).bind (searchAfterReset s f) s.chan = ⟨.ok none, _⟩ := Op.bind_of_ok hreset
    rw [runCommand_of_ok _ hret hend]
    rfl
  · rw [runCommand_of_channelFailure _ hret (Op.bind_of_error (busReset_send_fails _ _ hsend))]
  · rw [runCommand_of_channelFailure _ hret (Op.bind_of_error (busReset_no_echo _ _ hsend hrecv))]

/-! A loop in parts. -/

theorem Op.pure_bind {α β : Type} (v : α) (f : α → Op β) : (Op.pure v).bind f = f v := rfl

theorem Op.bind_assoc {α β γ : Type} (o : Op α) (f : α → Op β) (g : β → Op γ) :
    (o.bind f).bind g = o.bind fun v => (f v).bind g := by
  funext c
  obtain ⟨v, c', h, e⟩ | ⟨k, c', h, e⟩ := Op.bind_cases o f c
  · rw [Op.bind_of_ok h, Op.bind_apply, e, Op.bind_apply]
  · rw [Op.bind_of_error e, Op.bind_of_error h]

theorem Op.loop_add {α : Type} (body : Nat → α → Op α) (i m n : Nat) (v : α) :
    Op.loop body i (m + n) v = (Op.loop body i m v).bind fun v' => Op.loop body (i + m) n v' := by
  induction m generalizing i v with
  | zero => rw [Nat.zero_add, Op.loop_zero, Op.pure_bind, Nat.add_zero]
  | succ m ih =>
    simp only [Nat.succ_add_eq_add_succ m n, ← Nat.add_assoc m n 1, Op.loop_succ, Op.bind_assoc, ih,
      Nat.add_right_comm i 1 m]
    rfl

theorem Op.loop_congr {α : Type} {body body' : Nat → α → Op α} {i n : Nat}
    (h : ∀ k, i ≤ k → k < i + n → body k = body' k) : Op.loop body i n = Op.loop body' i n := by
  induction n generalizing i with
  | zero => rfl
  | succ n ih =>
    funext v
    rw [Op.loop_succ, Op.loop_succ, h i le_rfl (by omega), ih fun k hk hk' => h k (by omega) (by omega)]

/-! The walk as one loop over the 64 positions, whatever the Search State. -/

/-- What a search does at position `i` (rules R140, R145 to R147). -/
def searchPosition (s : State) (i : Nat) : Walk → Op Walk :=
  if s.ssv then
    if i < s.ldi.toNat then replayPosition s.params i
    else if i = s.ldi.toNat then forcedBranch s.params i
    else resolvePosition s.params i
  else resolvePosition s.params i

/-- Where the walk of a search begins: the Search State, with a running index of its own (rules R31, R145). -/
def searchOrigin (s : State) : Walk := if s.ssv then ⟨s.addr, s.disc, 0⟩ else ⟨0, 0, 0⟩

theorem walkPositions_eq_loop (s : State) :
    walkPositions s.params s.ssv s.addr s.disc s.ldi = Op.loop (searchPosition s) 0 64 (searchOrigin s) := by
  cases hssv : s.ssv
  case false =>
    have hresolve : searchPosition s = resolvePosition s.params := funext fun i => by simp [searchPosition, hssv]
    simp [walkPositions, searchOrigin, hresolve, hssv]
  case true =>
    have hldi := s.ldi.isLt
    have hreplay : Op.loop (searchPosition s) 0 s.ldi.toNat = Op.loop (replayPosition s.params) 0 s.ldi.toNat :=
      Op.loop_congr fun k _ hk => by simp [searchPosition, hssv, show k < s.ldi.toNat by omega]
    have hresolve : Op.loop (searchPosition s) (s.ldi.toNat + 1) (63 - s.ldi.toNat) =
        Op.loop (resolvePosition s.params) (s.ldi.toNat + 1) (63 - s.ldi.toNat) :=
      Op.loop_congr fun k hk _ => by
        simp [searchPosition, hssv, show ¬k < s.ldi.toNat by omega, show k ≠ s.ldi.toNat by omega]
    have hforced : searchPosition s s.ldi.toNat = forcedBranch s.params s.ldi.toNat := by
      simp [searchPosition, hssv]
    rw [show 64 = s.ldi.toNat + (63 - s.ldi.toNat + 1) by omega, Op.loop_add, hreplay, Nat.zero_add]
    simp only [Op.loop_succ, hforced, hresolve, walkPositions, searchOrigin, hssv, if_true]

/-! The working values before each position. -/

/-- The word `v` with its bits below `n` replaced by `bit 0, bit 1, ...`. -/
def fillBits (v : Word64) (bit : Nat → Bool) : Nat → Word64
  | 0 => v
  | n + 1 => setBit (fillBits v bit n) n (bit n)

theorem getLsbD_fillBits (v : Word64) (bit : Nat → Bool) (n i : Nat) (h : i < 64) :
    (fillBits v bit n).getLsbD i = if i < n then bit i else v.getLsbD i := by
  induction n with
  | zero => rfl
  | succ n ih =>
    rw [fillBits, getLsbD_setBit, ih]
    by_cases hi : i = n
    · simp [hi, hi ▸ h]
    · have hiff : i < n + 1 ↔ i < n := by omega
      simp [hi, hiff]

/-- Sixty-four bits are the whole word. -/
theorem fillBits_all {v a : Word64} {bit : Nat → Bool} (h : ∀ i < 64, a.getLsbD i = bit i) :
    fillBits v bit 64 = a := by
  refine BitVec.eq_of_getLsbD_eq fun i hi => ?_
  rw [getLsbD_fillBits _ _ _ _ hi, if_pos hi, h i hi]

/-- The working values before position `i`, of which every earlier position went on (rules R145 to R147). -/
def walkBefore (s : State) (echo : Nat → Byte) (i : Nat) : Walk where
  addr := fillBits (searchOrigin s).addr (searchBit s echo) i
  disc := fillBits (searchOrigin s).disc (searchMask s echo) i
  ldi := BitVec.ofNat 6 (lastMarked (searchMarks s echo) i)

theorem walkBefore_zero (s : State) (echo : Nat → Byte) : walkBefore s echo 0 = searchOrigin s := by
  cases hssv : s.ssv <;> simp [walkBefore, searchOrigin, fillBits, lastMarked, hssv]

theorem walkBefore_addr_getLsbD (s : State) (echo : Nat → Byte) {i : Nat} (hi : i < 64) :
    (walkBefore s echo i).addr.getLsbD i = (searchOrigin s).addr.getLsbD i := by
  rw [walkBefore, getLsbD_fillBits _ _ _ _ hi, if_neg (Nat.lt_irrefl i)]

theorem walkBefore_disc_getLsbD (s : State) (echo : Nat → Byte) {i : Nat} (hi : i < 64) :
    (walkBefore s echo i).disc.getLsbD i = (searchOrigin s).disc.getLsbD i := by
  rw [walkBefore, getLsbD_fillBits _ _ _ _ hi, if_neg (Nat.lt_irrefl i)]

theorem walkBefore_succ (s : State) (echo : Nat → Byte) (i : Nat) :
    walkBefore s echo (i + 1) =
      { addr := setBit (walkBefore s echo i).addr i (searchBit s echo i)
        disc := setBit (walkBefore s echo i).disc i (searchMask s echo i)
        ldi := if searchMarks s echo i then BitVec.ofNat 6 i else (walkBefore s echo i).ldi } := by
  cases h : searchMarks s echo i <;> simp [walkBefore, fillBits, lastMarked, h]

/-- Writing the bit that is there changes nothing. -/
theorem setBit_of_getLsbD_eq {w : Nat} {v : BitVec w} {i : Nat} {b : Bool} (h : v.getLsbD i = b) :
    setBit v i b = v := by
  refine BitVec.eq_of_getLsbD_eq fun j _ => ?_
  rw [getLsbD_setBit]
  split
  · next hj => rw [hj.1, h]
  · rfl

/-- The statement's bit, mask bit and mark at a position that step 6 resolves, in the terms of step 6 (rule R147). -/
theorem searchValues_of_start_le {s : State} {echo : Nat → Byte} {i : Nat} (hstart : searchStart s ≤ i) (hi : i < 64)
    (hgo : searchGoesOn s echo i = true) :
    searchNobody s echo i = false ∧
    searchBit s echo i = echoBit s.params (echo (2 * i)) ∧
    searchMask s echo i = ((walkBefore s echo i).disc.getLsbD i || searchCollision s echo i) ∧
    searchMarks s echo i = searchCollision s echo i := by
  rw [walkBefore_disc_getLsbD s echo hi]
  cases hssv : s.ssv
  case false => simpa [searchGoesOn, searchStart, searchBit, searchMask, searchMarks, searchOrigin, hssv] using hgo
  case true =>
    rw [searchStart, if_pos hssv] at hstart
    have hlt : ¬i < s.ldi.toNat := by omega
    have hne : i ≠ s.ldi.toNat := by omega
    simpa [searchGoesOn, searchStart, searchBit, searchMask, searchMarks, searchOrigin, hssv, hlt, hne,
      Nat.not_lt.mpr hstart] using hgo

/-! A position: a pair of read slots and, when the walk goes on, a write slot (rules R144 to R147). -/

@[simp] theorem walkSlots_zero (p : Params) (echo : Nat → Byte) (bit : Nat → Bool) : walkSlots p 0 echo bit = [] := rfl

theorem walkSlots_succ (p : Params) (n : Nat) (echo : Nat → Byte) (bit : Nat → Bool) :
    walkSlots p (n + 1) echo bit = walkSlots p n echo bit ++
      (readSlot (some (echo (2 * n))) ++ readSlot (some (echo (2 * n + 1))) ++ writeSlot p (bit n) true) := by
  simp [walkSlots, List.range_succ]

theorem readPair_echoes (p : Params) (c : Channel) (v v' : Byte) (hsend : sendsSucceed c 2)
    (hrecv : c.recvAhead 0 = some v) (hrecv' : c.recvAhead 1 = some v') :
    readPair p c = ⟨.ok (echoBit p v, echoBit p v'), c.advance 2 2 (readSlot (some v) ++ readSlot (some v'))⟩ := by
  have hfirst := readBit_echo p c v (hsend 0 (by decide)) hrecv
  have hsecond := readBit_echo p (c.advance 1 1 (readSlot (some v))) v' (by simpa using hsend 1 (by decide))
    (by simpa using hrecv')
  rw [readPair, Op.bind_of_ok hfirst, Op.bind_of_ok hsecond]
  simp [sensedBit_eq_echoBit]

theorem writeBit_sent (p : Params) (b : Bool) (c : Channel) (h : c.sendAhead 0 = true) :
    writeBit p b c = ⟨.ok (), c.advance 1 0 (writeSlot p b true)⟩ := by
  rw [writeBit_apply, h]
  rfl

/-- The channel before position `i` of a walk that began on `c` (rule R150). -/
def walkChannel (s : State) (echo : Nat → Byte) (c : Channel) (i : Nat) : Channel :=
  c.advance (3 * i) (2 * i) (walkSlots s.params i echo (searchBit s echo))

section Turn

variable {s : State} {echo : Nat → Byte} {c : Channel} {i : Nat} (hsend : sendsSucceed c (3 * i + 3))
  (hecho : echoesAre c (2 * i + 2) echo)
include hsend hecho

/-- A position that answers its pair of echoes with the write slot of its bit. -/
theorem readPair_bind_turn {f : Bool × Bool → Op Walk} {w : Walk}
    (hanswer : f (echoBit s.params (echo (2 * i)), echoBit s.params (echo (2 * i + 1))) =
      (writeBit s.params (searchBit s echo i)).bind fun _ => .pure w) :
    (readPair s.params).bind f (walkChannel s echo c i) = ⟨.ok w, walkChannel s echo c (i + 1)⟩ := by
  have hpair := readPair_echoes s.params (walkChannel s echo c i) (echo (2 * i)) (echo (2 * i + 1))
    (sendsSucceed_advance (fun k hk => hsend k (by omega)) _ _)
    (by simpa [walkChannel] using hecho (2 * i) (by omega))
    (by simpa [walkChannel] using hecho (2 * i + 1) (by omega))
  have hwrite := writeBit_sent s.params (searchBit s echo i) ((walkChannel s echo c i).advance 2 2
    (readSlot (some (echo (2 * i))) ++ readSlot (some (echo (2 * i + 1)))))
    (by simpa [walkChannel, Nat.add_assoc] using hsend (3 * i + 2) (by omega))
  rw [Op.bind_of_ok hpair, hanswer, Op.bind_of_ok hwrite, Op.pure_apply, walkChannel, walkChannel, walkSlots_succ,
    Channel.advance_advance, Channel.advance_advance, List.append_assoc]
  rfl

/-- Step 4 keeps the bit and its mask bit, and marks a pending discrepancy (rule R145). -/
theorem replayPosition_turn (hi : i < 64) (hssv : s.ssv = true) (hlt : i < s.ldi.toNat) :
    replayPosition s.params i (walkBefore s echo i) (walkChannel s echo c i) =
      ⟨.ok (walkBefore s echo (i + 1)), walkChannel s echo c (i + 1)⟩ := by
  have hbit : (walkBefore s echo i).addr.getLsbD i = searchBit s echo i := by
    simp [walkBefore_addr_getLsbD s echo hi, searchBit, searchOrigin, hssv, hlt]
  have hmask : (walkBefore s echo i).disc.getLsbD i = searchMask s echo i := by
    simp [walkBefore_disc_getLsbD s echo hi, searchMask, searchOrigin, hssv, hlt]
  have hmarks : searchMarks s echo i = searchMask s echo i := by simp [searchMarks, searchMask, hssv, hlt]
  refine readPair_bind_turn hsend hecho ?_
  rw [walkBefore_succ, setBit_of_getLsbD_eq hbit, setBit_of_getLsbD_eq hmask, hmarks, hbit, hmask]
  cases searchMask s echo i <;> rfl

/-- Step 5 forces the bit to 1 and clears its discrepancy (rule R146). -/
theorem forcedBranch_turn (hssv : s.ssv = true) (heq : i = s.ldi.toNat) (hgo : searchGoesOn s echo i = true) :
    forcedBranch s.params i (walkBefore s echo i) (walkChannel s echo c i) =
      ⟨.ok (walkBefore s echo (i + 1)), walkChannel s echo c (i + 1)⟩ := by
  have hpair : (echoBit s.params (echo (2 * i)) || echoBit s.params (echo (2 * i + 1))) = false := by
    simpa [searchGoesOn, searchCollision, hssv, heq] using hgo
  have hbit : searchBit s echo i = true := by simp [searchBit, hssv, heq]
  have hmask : searchMask s echo i = false := by simp [searchMask, hssv, heq]
  have hmarks : searchMarks s echo i = false := by simp [searchMarks, hssv, heq]
  refine readPair_bind_turn hsend hecho ?_
  rw [walkBefore_succ, hpair, hbit, hmask, hmarks]
  rfl

/-- Step 6 takes the first response bit, and marks a collision in the mask and as the index (rule R147). -/
theorem resolvePosition_turn (hi : i < 64) (hstart : searchStart s ≤ i) (hgo : searchGoesOn s echo i = true) :
    resolvePosition s.params i (walkBefore s echo i) (walkChannel s echo c i) =
      ⟨.ok (walkBefore s echo (i + 1)), walkChannel s echo c (i + 1)⟩ := by
  obtain ⟨hanswer, hbit, hmask, hmarks⟩ := searchValues_of_start_le hstart hi hgo
  refine readPair_bind_turn hsend hecho ?_
  rw [walkBefore_succ, hbit, hmask, hmarks]
  cases hfirst : echoBit s.params (echo (2 * i)) <;> cases hsecond : echoBit s.params (echo (2 * i + 1))
  case true.true => simp [searchNobody, hfirst, hsecond] at hanswer
  case false.false => simp [searchCollision, hfirst, hsecond, chooseBit]
  all_goals simp [searchCollision, hfirst, hsecond, setBit_of_getLsbD_eq, chooseBit]

/-- Every position of the walk that goes on (rules R140, R145 to R147). -/
theorem searchPosition_turn (hi : i < 64) (hgo : searchGoesOn s echo i = true) :
    searchPosition s i (walkBefore s echo i) (walkChannel s echo c i) =
      ⟨.ok (walkBefore s echo (i + 1)), walkChannel s echo c (i + 1)⟩ := by
  unfold searchPosition
  split_ifs with hssv hlt heq
  · exact replayPosition_turn hsend hecho hi hssv hlt
  · exact forcedBranch_turn hsend hecho hssv heq hgo
  · exact resolvePosition_turn hsend hecho hi (by rw [searchStart, if_pos hssv]; omega) hgo
  · exact resolvePosition_turn hsend hecho hi (by simp [searchStart, hssv]) hgo

end Turn

/-- The whole walk, where every position goes on. -/
theorem walkPositions_ok {s : State} {echo : Nat → Byte} {c : Channel} (hsend : sendsSucceed c 192)
    (hecho : echoesAre c 128 echo) (hgo : ∀ i < 64, searchGoesOn s echo i = true) :
    walkPositions s.params s.ssv s.addr s.disc s.ldi c = ⟨.ok (walkBefore s echo 64), walkChannel s echo c 64⟩ := by
  have hloop := Op.loop_of_turns (body := searchPosition s) (i := 0) (n := 64) (walkBefore s echo)
    (walkChannel s echo c) fun k hk => by
      rw [Nat.zero_add]
      exact searchPosition_turn (fun j hj => hsend j (by omega)) (fun j hj => hecho j (by omega)) hk (hgo k hk)
  rwa [walkBefore_zero, walkChannel, walkSlots_zero, Channel.advance_zero, ← walkPositions_eq_loop] at hloop

/-! The whole search, from presence to step 7. -/

/-- The walk runs on the channel that the reset and the command byte leave (rules R142, R143). -/
theorem reset_bind_searchAfterReset_present {s : State} {presence : Byte} (f : Bool) (hsend : sendsSucceed s.chan 9)
    (hrecv : s.chan.recvAhead 0 = some presence) (hpresent : presence ≠ s.params.resetPattern) :
    (busReset s.params).bind (searchAfterReset s f) s.chan =
      (walkPositions s.params s.ssv s.addr s.disc s.ldi).bind checkWalk
        (s.chan.advance 9 1 (searchHead s f presence)) := by
  have hreset := busReset_echo s.params s.chan presence (hsend 0 (by decide)) hrecv
  have hcommand := writeByte_ok s.params (searchCommandByte s.params f)
    (s.chan.advance 1 1 (resetSlot s.params (some presence))) (sendsSucceed_advance (n := 1) hsend _ _)
  rw [Op.bind_of_ok hreset, bne_iff_ne.mpr hpresent, searchAfterReset, if_pos rfl, Op.bind_of_ok hcommand,
    Channel.advance_advance]
  rfl

/-- The end of a command in step 7 with an address that fails the check (rules R149, R196). -/
theorem runCommand_of_checksumMismatch {α : Type} {s : State} {o : Op α} {c : Channel} (commit : α → State → State)
    (hret : everyCallReturns s) (h : o s.chan = ⟨.error .checksumMismatch, c⟩) :
    runCommand s o commit = .next { s with status := 0x03, chan := c } := by
  rw [runCommand_returns s o commit hret, settle_error h]
  rfl

theorem checkWalk_passes {a d : Word64} {l : BitVec 6} (h : verify (addressBytes a) = true) :
    checkWalk ⟨a, d, l⟩ = .pure (some ⟨a, d, l⟩) :=
  if_pos h

theorem checkWalk_fails {a d : Word64} {l : BitVec 6} (h : verify (addressBytes a) = false) :
    checkWalk ⟨a, d, l⟩ = .raise .checksumMismatch :=
  if_neg (by simp [h])

/-- Settles O26: the 64 positions are one loop whose turns are known; its last value is the one word with the bits of
the statement, and step 7 commits it or not. -/
theorem searchWalkResult : Obligations.SearchWalkResult := by
  intro f s presence echo a d hret hnot hsend hrecv hpresent hecho hgo haddr hdisc
  simp only [Nat.add_comm _ 1] at hecho
  have hlast : walkBefore s echo 64 = ⟨a, d, BitVec.ofNat 6 (lastMarked (searchMarks s echo) 64)⟩ := by
    rw [walkBefore, fillBits_all haddr, fillBits_all hdisc]
  have hwalk := walkPositions_ok (sendsSucceed_advance (n := 9) (k := 192) hsend 1 (searchHead s f presence))
    (echoesAre_advance hecho 9 _) hgo
  have hend := reset_bind_searchAfterReset_present f (fun k hk => hsend k (by omega)) hrecv hpresent
  rw [hlast, walkChannel, Channel.advance_advance] at hwalk
  rw [Op.bind_of_ok hwalk] at hend
  rw [exec_search, deviceSearch_of_not_exhausted f hnot]
  refine ⟨fun hpass => ?_, fun hfail => ?_⟩
  · rw [checkWalk_passes hpass, Op.pure_apply] at hend
    rw [runCommand_of_ok _ hret hend]
    rfl
  · rw [checkWalk_fails hfail, Op.raise_apply] at hend
    rw [runCommand_of_checksumMismatch _ hret hend]

end Sys2Proof.Machine

/-! ## How a command ends (rules R25, R190, R191, R196, R197) -/

namespace Sys2Proof.Machine

/-! The three fields of a `STATUS` word (rule R25). -/

@[simp] theorem statusCode_statusWord (code : BitVec 4) (flag : Bool) : statusCode (statusWord code flag) = code := by
  revert code flag
  decide

@[simp] theorem statusFlag_statusWord (code : BitVec 4) (flag : Bool) : statusFlag (statusWord code flag) = flag := by
  revert code flag
  decide

@[simp] theorem extractLsb'_five_statusWord (code : BitVec 4) (flag : Bool) :
    (statusWord code flag).extractLsb' 5 3 = 0 := by
  revert code flag
  decide

@[simp] theorem statusCode_okStatus (flag : Bool) : statusCode (okStatus flag) = 0 := statusCode_statusWord codeOk flag

@[simp] theorem statusCode_errorStatus (k : ErrorKind) : statusCode (errorStatus k) = codeOf k :=
  statusCode_statusWord (codeOf k) false

@[simp] theorem statusCode_illegalStatus : statusCode illegalStatus = codeIllegalCommand :=
  statusCode_statusWord codeIllegalCommand false

theorem codeOf_eq_one_iff (k : ErrorKind) : codeOf k = 0x1 ↔ k = .channelFailure := by
  cases k <;> decide

/-! What the commands' sub-operations are built from. A `SlotRelation` relates channels and does not see how a
sub-operation ends; an induction over its construction does. -/

/-- An operation put together from resets and bit slots in sequence, which itself raises no `ChannelFailure`. -/
inductive Op.OfSlots (p : Params) : {α : Type} → Op α → Prop
  | pure {α : Type} (v : α) : Op.OfSlots p (Op.pure v)
  | raise {α : Type} {k : ErrorKind} (hk : k ≠ .channelFailure) : Op.OfSlots p (Op.raise k : Op α)
  | busReset : Op.OfSlots p (busReset p)
  | writeBit (b : Bool) : Op.OfSlots p (writeBit p b)
  | readBit : Op.OfSlots p (readBit p)
  | bind {α β : Type} {o : Op α} {f : α → Op β} (first : Op.OfSlots p o) (second : ∀ v, Op.OfSlots p (f v)) :
      Op.OfSlots p (o.bind f)

namespace Op.OfSlots

variable {p : Params}

theorem loop {α : Type} {body : Nat → α → Op α} (turn : ∀ i v, (body i v).OfSlots p) (i n : Nat) (v : α) :
    (Op.loop body i n v).OfSlots p := by
  induction n generalizing i v with
  | zero => exact .pure v
  | succ n ih => exact .bind (turn i v) fun v' => ih (i + 1) v'

theorem writeByte (v : Byte) : (writeByte p v).OfSlots p := loop (fun i _ => .writeBit (v.getLsbD i)) 0 8 ()

theorem readByte : (readByte p).OfSlots p := loop (fun _ _ => .bind .readBit fun _ => .pure _) 0 8 0

theorem resetOrFail : (resetOrFail p).OfSlots p := by
  refine .bind .busReset fun present => ?_
  cases present
  · exact .raise (by decide)
  · exact .pure ()

theorem readAddress : (readAddress p).OfSlots p :=
  .bind resetOrFail fun _ => .bind (writeByte _) fun _ => loop (fun _ _ => .bind readByte fun _ => .pure _) 0 8 0

theorem matchAddress (a : Word64) : (matchAddress p a).OfSlots p :=
  .bind resetOrFail fun _ => .bind (writeByte _) fun _ => loop (fun k _ => writeByte (byteLane a k)) 0 8 ()

theorem skipAddress : (skipAddress p).OfSlots p := .bind resetOrFail fun _ => writeByte _

theorem readPair : (readPair p).OfSlots p := .bind .readBit fun _ => .bind .readBit fun _ => .pure _

theorem replayPosition (i : Nat) (w : Walk) : (replayPosition p i w).OfSlots p :=
  .bind readPair fun _ => .bind (.writeBit _) fun _ => .pure _

theorem forcedBranch (q : Nat) (w : Walk) : (forcedBranch p q w).OfSlots p := by
  refine .bind readPair fun r => ?_
  split
  · exact .raise (by decide)
  · exact .bind (.writeBit true) fun _ => .pure _

theorem chooseBit (i : Nat) (b : Bool) (w : Walk) : (chooseBit p i b w).OfSlots p :=
  .bind (.writeBit b) fun _ => .pure _

theorem resolvePosition (i : Nat) (w : Walk) : (resolvePosition p i w).OfSlots p := by
  refine .bind readPair fun r => ?_
  split
  · exact .raise (by decide)
  all_goals exact chooseBit i _ _

theorem walkPositions (ssv : Bool) (addr disc : Word64) (ldi : BitVec 6) :
    (walkPositions p ssv addr disc ldi).OfSlots p := by
  unfold Machine.walkPositions
  split
  · exact .bind (loop replayPosition _ _ _) fun _ => .bind (forcedBranch _ _) fun _ => loop resolvePosition _ _ _
  · exact loop resolvePosition _ _ _

theorem checkWalk (w : Walk) : (checkWalk w).OfSlots p := by
  unfold Machine.checkWalk
  split
  · exact .pure _
  · exact .raise (by decide)

theorem deviceSearch (alarm ssv : Bool) (addr disc : Word64) (ldi : BitVec 6) :
    (deviceSearch p alarm ssv addr disc ldi).OfSlots p := by
  unfold Machine.deviceSearch
  split
  · exact .pure none
  · refine .bind .busReset fun present => ?_
    split
    · exact .bind (writeByte _) fun _ => .bind (walkPositions _ _ _ _) checkWalk
    · exact .pure none

end Op.OfSlots

/-! The three ends of a command. -/

/-- A command from `s` leaves `t`: its sub-operation returned and its commit wrote `CODE = OK`, or its sub-operation
raised an error, or it was illegal. -/
inductive CommandEnd (s : State) : State → Prop
  | ok {α : Type} {o : Op α} {v : α} {t : State} (ho : o.OfSlots s.params) (returned : (o s.chan).outcome = .ok v)
      (chan : t.chan = (o s.chan).chan) (code : statusCode t.status = 0) : CommandEnd s t
  | error {α : Type} {o : Op α} {k : ErrorKind} (ho : o.OfSlots s.params)
      (raised : (o s.chan).outcome = .error k) : CommandEnd s (endWithError k (s.setChan (o s.chan).chan))
  | illegal : CommandEnd s (endIllegal s)

theorem CommandEnd.of_runCommand {α : Type} {s t : State} {o : Op α} {commit : α → State → State}
    (h : runCommand s o commit = .next t) (ho : o.OfSlots s.params)
    (hcommit : ∀ v u, (commit v u).chan = u.chan ∧ statusCode (commit v u).status = 0) : CommandEnd s t := by
  obtain ⟨v, returned, rfl⟩ | ⟨k, raised, rfl⟩ := runCommand_next h
  · obtain ⟨hchan, hcode⟩ := hcommit v (s.setChan (o s.chan).chan)
    exact .ok ho returned hchan hcode
  · exact .error ho raised

theorem statusCode_commitSearch (found : Option Walk) (s : State) : statusCode (commitSearch found s).status = 0 := by
  cases found
  · exact statusCode_okStatus false
  · exact statusCode_okStatus true

theorem exec_crcCompute_illegal {n : BitVec 4} (s : State) (hn : ¬n.toNat ≤ 9) :
    exec (.crcCompute n) s = .next (endIllegal s) :=
  if_neg (by rwa [lengthOk_iff])

theorem exec_crcVerify_illegal {n : BitVec 4} (s : State) (hn : ¬n.toNat ≤ 9) :
    exec (.crcVerify n) s = .next (endIllegal s) :=
  if_neg (by rwa [lengthOk_iff])

/-- Every command that answers a next state ends in one of the three ways. -/
theorem exec_next {i : Instr} {s t : State} (h : exec i s = .next t) : CommandEnd s t := by
  cases i with
  | reset => exact .of_runCommand h .busReset fun present _ => ⟨rfl, statusCode_okStatus present⟩
  | writeBit b => exact .of_runCommand h (.writeBit b) fun _ _ => ⟨rfl, statusCode_okStatus false⟩
  | readBit => exact .of_runCommand h .readBit fun _ _ => ⟨rfl, statusCode_okStatus false⟩
  | writeByte v => exact .of_runCommand h (.writeByte v) fun _ _ => ⟨rfl, statusCode_okStatus false⟩
  | readByte => exact .of_runCommand h .readByte fun _ _ => ⟨rfl, statusCode_okStatus false⟩
  | crcCompute n =>
    by_cases hn : n.toNat ≤ 9
    · cases (exec_crcCompute s hn).symm.trans h
      exact .ok (.pure ()) rfl rfl (statusCode_okStatus false)
    · cases (exec_crcCompute_illegal s hn).symm.trans h
      exact .illegal
  | crcVerify n =>
    by_cases hn : n.toNat ≤ 9
    · cases (exec_crcVerify s hn).symm.trans h
      exact .ok (.pure ()) rfl rfl (statusCode_okStatus _)
    · cases (exec_crcVerify_illegal s hn).symm.trans h
      exact .illegal
  | readAddress => exact .of_runCommand h .readAddress fun _ _ => ⟨rfl, statusCode_okStatus false⟩
  | matchAddress => exact .of_runCommand h (.matchAddress s.addr) fun _ _ => ⟨rfl, statusCode_okStatus false⟩
  | skipAddress => exact .of_runCommand h .skipAddress fun _ _ => ⟨rfl, statusCode_okStatus false⟩
  | search f =>
    exact .of_runCommand h (.deviceSearch f s.ssv s.addr s.disc s.ldi) fun found u =>
      ⟨commitSearch_chan found u, statusCode_commitSearch found u⟩

/-- Settles O35: of the three ends, the first leaves `CODE = OK`, and the other two are a `setStatus` with FLAG = 0 on the
state with the command's channel. -/
theorem errorWritesStatusOnly : Obligations.ErrorWritesStatusOnly := by
  intro i s t h hcode
  cases exec_next h with
  | ok _ _ _ code => exact absurd code hcode
  | error => exact ⟨statusFlag_statusWord _ false, extractLsb'_five_statusWord _ false, rfl⟩
  | illegal => exact ⟨statusFlag_statusWord _ false, extractLsb'_five_statusWord _ false, rfl⟩

/-! Where the failed calls are among the events of a sub-operation (rule R191). -/

/-- No channel call among these events failed. -/
def allAnswered (events : List Event) : Prop := ∀ e ∈ events, failedEvent e = false

theorem allAnswered_append {a b : List Event} (ha : allAnswered a) (hb : allAnswered b) : allAnswered (a ++ b) :=
  fun e he => (List.mem_append.mp he).elim (ha e) (hb e)

/-- A run from channel `c` met no failed call and did not end with `ChannelFailure`, or it was cut by a failed call, its
last event, and ended with `ChannelFailure`. -/
inductive Run.StopsAtFailure {α : Type} (c : Channel) (r : Run α) : Prop
  | answered (events : List Event) (trace : r.chan.trace = c.trace ++ events) (clean : allAnswered events)
      (notFailed : r.outcome ≠ .error .channelFailure)
  | cut (before : List Event) (e : Event) (trace : r.chan.trace = c.trace ++ (before ++ [e]))
      (clean : allAnswered before) (failed : failedEvent e = true) (raised : r.outcome = .error .channelFailure)

namespace Run.StopsAtFailure

/-- Answered calls before a run make no difference. -/
theorem after_answered {α : Type} {c c' : Channel} {r : Run α} {events : List Event}
    (trace : c'.trace = c.trace ++ events) (clean : allAnswered events) (h : r.StopsAtFailure c') :
    r.StopsAtFailure c := by
  cases h with
  | answered events' trace' clean' notFailed =>
    exact .answered (events ++ events') (by rw [trace', trace, List.append_assoc]) (allAnswered_append clean clean')
      notFailed
  | cut before e trace' clean' failed raised =>
    exact .cut (events ++ before) e (by simp only [trace', trace, List.append_assoc])
      (allAnswered_append clean clean') failed raised

theorem bind {α β : Type} {o : Op α} {f : α → Op β} (first : ∀ c, (o c).StopsAtFailure c)
    (second : ∀ v c, (f v c).StopsAtFailure c) (c : Channel) : (o.bind f c).StopsAtFailure c := by
  have hfirst := first c
  obtain ⟨v, c', h, e⟩ | ⟨k, c', h, e⟩ := Op.bind_cases o f c
  all_goals
    rw [h] at hfirst
    rw [e]
  · cases hfirst with
    | answered events trace clean => exact (second v c').after_answered trace clean
    | cut _ _ _ _ _ raised => cases raised
  · cases hfirst with
    | answered events trace clean notFailed =>
      exact .answered events trace clean fun hk => notFailed (congrArg _ (Except.error.inj hk))
    | cut before e trace clean failed raised =>
      exact .cut before e trace clean failed (congrArg _ (Except.error.inj raised))

theorem pure {α : Type} (v : α) (c : Channel) : (Op.pure v c).StopsAtFailure c :=
  .answered [] (List.append_nil _).symm nofun nofun

theorem raise {α : Type} {k : ErrorKind} (hk : k ≠ .channelFailure) (c : Channel) :
    (Op.raise k c : Run α).StopsAtFailure c :=
  .answered [] (List.append_nil _).symm nofun fun h => hk (Except.error.inj h)

theorem slot (rate : Rate) (b : Byte) (c : Channel) : (slot rate b c).StopsAtFailure c := by
  rw [slot_apply]
  cases c.sendAhead 0 with
  | true => exact .answered _ (c.advance_trace _ _ _) (by simp [allAnswered, failedEvent]) nofun
  | false => exact .cut [.rate rate, .flush] _ (c.advance_trace _ _ _) (by simp [allAnswered, failedEvent]) rfl rfl

theorem receive (c : Channel) : (receive c).StopsAtFailure c := by
  rw [receive_apply]
  cases c.recvAhead 0 with
  | some v => exact .answered _ (c.advance_trace _ _ _) (by simp [allAnswered, failedEvent]) nofun
  | none => exact .cut [] _ (c.advance_trace _ _ _) nofun rfl rfl

theorem slot_bind_receive {α : Type} (rate : Rate) (b : Byte) (f : Byte → α) (c : Channel) :
    ((Machine.slot rate b).bind (fun _ => Machine.receive.bind fun v => .pure (f v)) c).StopsAtFailure c :=
  bind (slot rate b) (fun _ => bind receive fun v => pure (f v)) c

end Run.StopsAtFailure

/-- What is put together from slots stops at the first failed call (rules R191, R197). -/
theorem Op.OfSlots.stopsAtFailure {p : Params} {α : Type} {o : Op α} (ho : o.OfSlots p) (c : Channel) :
    (o c).StopsAtFailure c := by
  induction ho generalizing c with
  | pure v => exact .pure v c
  | raise hk => exact .raise hk c
  | busReset => exact .slot_bind_receive .slow p.resetPattern _ c
  | writeBit b => exact .slot .fast _ c
  | readBit => exact .slot_bind_receive .fast readByteOut _ c
  | bind first second ihFirst ihSecond => exact .bind ihFirst ihSecond c

/-! The same, of the events that a command adds to the trace. -/

/-- Some call among the events failed exactly when `failed` says so, and a failed call is the last event. -/
def failureIsLast (failed : Prop) (events : List Event) : Prop :=
  (failed ↔ ∃ e ∈ events, failedEvent e = true) ∧
  (∀ before e after, events = before ++ e :: after → failedEvent e = true → after = [])

theorem failureIsLast_of_allAnswered {failed : Prop} {events : List Event} (hnot : ¬failed)
    (clean : allAnswered events) : failureIsLast failed events := by
  refine ⟨iff_of_false hnot fun ⟨e, he, hfail⟩ => ?_, fun before e after hevents hfail => ?_⟩
  · simp [clean e he] at hfail
  · simp [clean e (by simp [hevents])] at hfail

theorem failureIsLast_of_cut {failed : Prop} {before : List Event} {e : Event} (hfailed : failed)
    (clean : allAnswered before) (hfail : failedEvent e = true) : failureIsLast failed (before ++ [e]) := by
  refine ⟨iff_of_true hfailed ⟨e, by simp, hfail⟩, fun before' e' after hevents hfail' => ?_⟩
  obtain rfl | ⟨after', last, rfl⟩ := after.eq_nil_or_concat'
  · rfl
  · have hbefore : before = before' ++ e' :: after' :=
      (List.append_inj' (hevents.trans (List.append_assoc before' (e' :: after') [last]).symm) rfl).1
    simp [clean e' (by simp [hbefore])] at hfail'

theorem Run.StopsAtFailure.failureIsLast {α : Type} {c : Channel} {r : Run α} (h : r.StopsAtFailure c)
    {events : List Event} (htrace : r.chan.trace = c.trace ++ events) :
    failureIsLast (r.outcome = .error .channelFailure) events := by
  cases h with
  | answered events' trace clean notFailed =>
    obtain rfl := List.append_cancel_left (htrace.symm.trans trace)
    exact failureIsLast_of_allAnswered notFailed clean
  | cut before e trace clean failed raised =>
    obtain rfl := List.append_cancel_left (htrace.symm.trans trace)
    exact failureIsLast_of_cut raised clean failed

/-- Settles O45: a sub-operation stops at the first failed call, and each of the three ends of a command writes
`CODE = ChannelFailure` exactly when its sub-operation raised it. -/
theorem channelFailureIsTheLastEvent : Obligations.ChannelFailureIsTheLastEvent := by
  intro i s t events h htrace
  change failureIsLast (statusCode t.status = 0x1) events
  cases exec_next h with
  | ok ho returned chan code =>
    rw [chan] at htrace
    have hlast := (ho.stopsAtFailure s.chan).failureIsLast htrace
    simpa [returned, code] using hlast
  | error ho raised =>
    have hlast := (ho.stopsAtFailure s.chan).failureIsLast htrace
    rw [endWithError_status, statusCode_errorStatus, codeOf_eq_one_iff]
    simpa [raised] using hlast
  | illegal =>
    obtain rfl : events = [] := by simpa using htrace
    exact failureIsLast_of_allAnswered (by simp [codeIllegalCommand]) nofun

end Sys2Proof.Machine

/-! ## The state right after reset (rules R34, R220, R222) -/

namespace Sys2Proof.Machine

@[simp] theorem Channel.atReset_trace : Channel.atReset.trace = [] := rfl

@[simp] theorem State.reset_chan : State.reset.chan = Channel.atReset := rfl

/-- Settles O50: the registers are the fields that `State.reset` writes, and its channel is the one with no event. -/
theorem resetValues : Obligations.ResetValues := by
  have hevents : State.reset.chan.trace = [] := by simp
  exact ⟨rfl, rfl, rfl, rfl, rfl, hevents⟩

end Sys2Proof.Machine

/-! ## Decoder and encoder are inverse (rules R80 to R83) -/

namespace Sys2Proof

/-! The fields of the word of a command (rule R80). -/

@[simp] theorem opcodeField_append (hi lo : Byte) : opcodeField (hi ++ lo) = hi := BitVec.extractLsb'_append_eq_left

@[simp] theorem immediateField_append (hi lo : Byte) : immediateField (hi ++ lo) = lo :=
  BitVec.extractLsb'_append_eq_right

@[simp] theorem opcodeField_encode (i : Instr) : opcodeField (encode i) = opcodeOf i := opcodeField_append _ _

@[simp] theorem immediateField_encode (i : Instr) : immediateField (encode i) = immediateOf i :=
  immediateField_append _ _

/-! The operands in `IMM` (rule R81): what each format writes reads back, and what it reads is what it would write. -/

theorem bit_of_ofBool (b : Bool) : ((BitVec.ofBool b).setWidth 8).getLsbD 0 = b := by cases b <;> rfl

theorem high_of_ofBool (b : Bool) : ((BitVec.ofBool b).setWidth 8).extractLsb' 1 7 = 0 := by cases b <;> rfl

theorem low_of_length : ∀ n : BitVec 4, (n.setWidth 8).extractLsb' 0 4 = n := by decide

theorem high_of_length : ∀ n : BitVec 4, (n.setWidth 8).extractLsb' 4 4 = 0 := by decide

theorem ofBool_of_high_zero :
    ∀ imm : Byte, imm.extractLsb' 1 7 = 0 → (BitVec.ofBool (imm.getLsbD 0)).setWidth 8 = imm := by decide +kernel

theorem length_of_high_zero :
    ∀ imm : Byte, imm.extractLsb' 4 4 = 0 → (imm.extractLsb' 0 4).setWidth 8 = imm := by decide +kernel

/-- The format of a well-formed command reads the command's own immediate back. -/
theorem readImmediate_immediateOf {i : Instr} (h : i.wellFormed = true) : readImmediate (immediateOf i) i = .ok i := by
  cases i with
  | reset | readBit | readByte | readAddress | matchAddress | skipAddress =>
    exact (formatN_eq_ok_iff _ _ _).mpr ⟨rfl, rfl⟩
  | writeBit b | search b =>
    exact (formatB_eq_ok_iff _ _ _).mpr ⟨high_of_ofBool b, congrArg _ (bit_of_ofBool b)⟩
  | writeByte v => exact (formatY_eq_ok_iff _ _ _).mpr rfl
  | crcCompute n | crcVerify n =>
    have hlow := low_of_length n
    refine (formatL_eq_ok_iff _ _ _).mpr ⟨high_of_length n, ?_, congrArg _ hlow⟩
    rwa [immediateOf, hlow]

/-- What a format reads is a well-formed command with that immediate, of the same opcode. -/
theorem wellFormed_of_readImmediate {imm : Byte} {i j : Instr} (h : readImmediate imm i = .ok j) :
    j.wellFormed = true ∧ opcodeOf j = opcodeOf i ∧ immediateOf j = imm := by
  cases i with
  | reset | readBit | readByte | readAddress | matchAddress | skipAddress =>
    obtain ⟨rfl, rfl⟩ := (formatN_eq_ok_iff _ _ _).mp h
    exact ⟨rfl, rfl, rfl⟩
  | writeBit _ | search _ =>
    obtain ⟨hhigh, rfl⟩ := (formatB_eq_ok_iff _ _ _).mp h
    exact ⟨rfl, rfl, ofBool_of_high_zero imm hhigh⟩
  | writeByte _ =>
    obtain rfl := (formatY_eq_ok_iff _ _ _).mp h
    exact ⟨rfl, rfl, rfl⟩
  | crcCompute _ | crcVerify _ =>
    obtain ⟨hhigh, hlength, rfl⟩ := (formatL_eq_ok_iff _ _ _).mp h
    exact ⟨hlength, rfl, length_of_high_zero imm hhigh⟩

/-- Settles O4: the opcode of the word chooses the command's row, whose format reads the operand back. -/
theorem decodeOfEncode : Obligations.DecodeOfEncode := by
  intro i h
  refine decode_eq_ok_iff.mpr ⟨i, (opcodeField_encode i).symm, ?_⟩
  rw [immediateField_encode]
  exact readImmediate_immediateOf h

/-- Settles O5: opcode and immediate of the decoded command are the two fields of the word. -/
theorem encodeOfDecode : Obligations.EncodeOfDecode := by
  intro w j h
  obtain ⟨i, hopc, hread⟩ := decode_eq_ok_iff.mp h
  obtain ⟨hwf, hopcode, himm⟩ := wellFormed_of_readImmediate hread
  refine ⟨hwf, (word_eq_iff_fields _ _).mpr ⟨?_, ?_⟩⟩
  · rw [opcodeField_encode, hopcode, hopc]
  · rw [immediateField_encode, himm]

/-- Settles O6: each word is the encoding of its command. -/
theorem sampleWordsDecode : Obligations.SampleWordsDecode :=
  ⟨decodeOfEncode .reset rfl, decodeOfEncode (.writeBit true) rfl, decodeOfEncode .readBit rfl,
    decodeOfEncode (.writeByte 0xCC) rfl, decodeOfEncode .readByte rfl, decodeOfEncode (.crcCompute 9) rfl,
    decodeOfEncode (.crcVerify 0) rfl, decodeOfEncode .readAddress rfl, decodeOfEncode .matchAddress rfl,
    decodeOfEncode .skipAddress rfl, decodeOfEncode (.search false) rfl, decodeOfEncode (.search true) rfl⟩

end Sys2Proof

/-! ## Every command is one sub-operation and one write (rules R28, R38, R196) -/

namespace Sys2Proof.Machine

/-- What a command writes to the registers at its end (rules R32, R38, R90, R149, R196). -/
inductive Write where
  | flag (f : Bool)
  | data (v : Byte)
  | addr (a : Word64)
  | searchState (w : Walk)
  | error (k : ErrorKind)
  | illegal

/-- The write carried out. -/
def Write.apply : Write → State → State
  | .flag f, s => s.setStatus (okStatus f)
  | .data v, s => (s.setData v).setStatus (okStatus false)
  | .addr a, s => (s.setAddr a).setStatus (okStatus false)
  | .searchState w, s => (s.setSearchState w.addr w.disc w.ldi).setStatus (okStatus true)
  | .error k, s => endWithError k s
  | .illegal, s => endIllegal s

/-- The word a write leaves in `STATUS`. -/
def Write.status : Write → Byte
  | .flag f => okStatus f
  | .data _ => okStatus false
  | .addr _ => okStatus false
  | .searchState _ => okStatus true
  | .error k => errorStatus k
  | .illegal => illegalStatus

@[simp] theorem Write.apply_status (w : Write) (s : State) : (w.apply s).status = w.status := by cases w <;> rfl

@[simp] theorem Write.apply_chan (w : Write) (s : State) : (w.apply s).chan = s.chan := by cases w <;> rfl

@[simp] theorem Write.apply_params (w : Write) (s : State) : (w.apply s).params = s.params := by cases w <;> rfl

@[simp] theorem Write.apply_buf (w : Write) (s : State) : (w.apply s).buf = s.buf := by cases w <;> rfl

/-- No write depends on the channel. -/
theorem Write.apply_setChan (w : Write) (s : State) (c : Channel) :
    w.apply (s.setChan c) = (w.apply s).setChan c := by
  cases w <;> rfl

/-- What a search without an error writes (rules R149, R151). -/
def searchWrite : Option Walk → Write
  | some w => .searchState w
  | none => .flag false

theorem commitSearch_eq (found : Option Walk) (s : State) : commitSearch found s = (searchWrite found).apply s := by
  cases found <;> rfl

/-- A command as a sub-operation that returns what the command writes. -/
def commandOp (s : State) : Instr → Op Write
  | .reset => (busReset s.params).bind fun present => .pure (.flag present)
  | .writeBit b => (writeBit s.params b).bind fun _ => .pure (.flag false)
  | .readBit => (readBit s.params).bind fun r => .pure (.data ((BitVec.ofBool r).setWidth 8))
  | .writeByte v => (writeByte s.params v).bind fun _ => .pure (.flag false)
  | .readByte => (readByte s.params).bind fun v => .pure (.data v)
  | .crcCompute n => .pure (if lengthOk n then .data (crc8 (bufPrefix s n)) else .illegal)
  | .crcVerify n => .pure (if lengthOk n then .flag (verify (bufPrefix s n)) else .illegal)
  | .readAddress => (readAddress s.params).bind fun a => .pure (.addr a)
  | .matchAddress => (matchAddress s.params s.addr).bind fun _ => .pure (.flag false)
  | .skipAddress => (skipAddress s.params).bind fun _ => .pure (.flag false)
  | .search f => (deviceSearch s.params f s.ssv s.addr s.disc s.ldi).bind fun found => .pure (searchWrite found)

/-- A commit that carries out a write may as well return it. -/
theorem runCommand_eq_write {α : Type} (s : State) (o : Op α) {commit : α → State → State} (write : α → Write)
    (h : ∀ v t, commit v t = (write v).apply t) :
    runCommand s o commit = runCommand s (o.bind fun v => .pure (write v)) Write.apply := by
  obtain ⟨v, c, ho, hbind⟩ | ⟨k, c, ho, hbind⟩ := Op.bind_cases o (fun v => Op.pure (write v)) s.chan
  all_goals
    rw [runCommand, runCommand, hbind, ho]
    simp [settle, h]

/-- `exec` is the sub-operation of the command and the write it returns. -/
theorem exec_eq_runCommand (i : Instr) (s : State) : exec i s = runCommand s (commandOp s i) Write.apply := by
  cases i with
  | reset => exact runCommand_eq_write s _ .flag fun _ _ => rfl
  | writeBit b => exact runCommand_eq_write s _ (fun _ => .flag false) fun _ _ => rfl
  | readBit => exact runCommand_eq_write s _ (fun r => .data ((BitVec.ofBool r).setWidth 8)) fun _ _ => rfl
  | writeByte v => exact runCommand_eq_write s _ (fun _ => .flag false) fun _ _ => rfl
  | readByte => exact runCommand_eq_write s _ .data fun _ _ => rfl
  | crcCompute n =>
    rw [commandOp, runCommand_pure, exec, execCrcCompute]
    split <;> rfl
  | crcVerify n =>
    rw [commandOp, runCommand_pure, exec, execCrcVerify]
    split <;> rfl
  | readAddress => exact runCommand_eq_write s _ .addr fun _ _ => rfl
  | matchAddress => exact runCommand_eq_write s _ (fun _ => .flag false) fun _ _ => rfl
  | skipAddress => exact runCommand_eq_write s _ (fun _ => .flag false) fun _ _ => rfl
  | search f => exact runCommand_eq_write s _ searchWrite commitSearch_eq

theorem commandOp_ofSlots (i : Instr) (s : State) : (commandOp s i).OfSlots s.params := by
  cases i with
  | reset => exact .bind .busReset fun _ => .pure _
  | writeBit b => exact .bind (.writeBit b) fun _ => .pure _
  | readBit => exact .bind .readBit fun _ => .pure _
  | writeByte v => exact .bind (.writeByte v) fun _ => .pure _
  | readByte => exact .bind .readByte fun _ => .pure _
  | crcCompute n | crcVerify n => exact .pure _
  | readAddress => exact .bind .readAddress fun _ => .pure _
  | matchAddress => exact .bind (.matchAddress s.addr) fun _ => .pure _
  | skipAddress => exact .bind .skipAddress fun _ => .pure _
  | search f => exact .bind (.deviceSearch f s.ssv s.addr s.disc s.ldi) fun _ => .pure _

/-- What a run of a command writes: what it returned, or its error (rule R196). -/
def Run.write (r : Run Write) : Write :=
  match r.outcome with
  | .ok w => w
  | .error k => .error k

theorem settle_eq_apply (s : State) (r : Run Write) : settle s r Write.apply = r.write.apply (s.setChan r.chan) := by
  obtain ⟨outcome, c⟩ := r
  cases outcome <;> rfl

/-- A command that answers a next state made its sub-operation's run and carried out its write. -/
theorem exec_next_eq {i : Instr} {s t : State} (h : exec i s = .next t) :
    t = (commandOp s i s.chan).write.apply (s.setChan (commandOp s i s.chan).chan) := by
  rw [exec_eq_runCommand, runCommand] at h
  split at h
  · cases h
  · cases h
    exact settle_eq_apply _ _

theorem exec_next_chan {i : Instr} {s t : State} (h : exec i s = .next t) : t.chan = (commandOp s i s.chan).chan := by
  rw [exec_next_eq h, Write.apply_chan, State.setChan_chan]

theorem exec_of_returns (i : Instr) {s : State} (hret : everyCallReturns s) :
    exec i s = .next ((commandOp s i s.chan).write.apply (s.setChan (commandOp s i s.chan).chan)) := by
  rw [exec_eq_runCommand, runCommand_returns _ _ _ hret, settle_eq_apply]

/-! How a sub-operation ends, as a triple without a precondition: the errors it can raise and what it returns. -/

/-- On every channel the operation returns a value with `Q` or raises one of the errors `ks`. -/
def Op.Ends {α : Type} (ks : List ErrorKind) (Q : α → Prop) (o : Op α) : Prop :=
  ∀ c, (∃ v, (o c).outcome = .ok v ∧ Q v) ∨ ∃ k ∈ ks, (o c).outcome = .error k

namespace Op.Ends

variable {α β : Type} {ks : List ErrorKind}

theorem pure {Q : α → Prop} {v : α} (hv : Q v) : (Op.pure v).Ends ks Q := fun _ => .inl ⟨v, rfl, hv⟩

theorem raise {Q : α → Prop} {k : ErrorKind} (hk : k ∈ ks) : (Op.raise k : Op α).Ends ks Q := fun _ => .inr ⟨k, hk, rfl⟩

theorem bind {P : α → Prop} {Q : β → Prop} {o : Op α} {f : α → Op β} (first : o.Ends ks P)
    (second : ∀ v, P v → (f v).Ends ks Q) : (o.bind f).Ends ks Q := by
  intro c
  have hfirst := first c
  obtain ⟨v, c', ho, e⟩ | ⟨k, c', ho, e⟩ := Op.bind_cases o f c <;> rw [ho] at hfirst <;> rw [e]
  · obtain ⟨v', hv', hP⟩ | ⟨k, -, hk⟩ := hfirst
    · cases hv'
      exact second v hP c'
    · cases hk
  · obtain ⟨v, hv, -⟩ | ⟨k', hmem, hk⟩ := hfirst
    · cases hv
    · cases hk
      exact .inr ⟨k, hmem, rfl⟩

/-- A loop with an invariant that may name the position. -/
theorem loop {I : Nat → α → Prop} {body : Nat → α → Op α} {i n : Nat} {v : α}
    (turn : ∀ j v, i ≤ j → j < i + n → I j v → (body j v).Ends ks (I (j + 1))) (hv : I i v) :
    (Op.loop body i n v).Ends ks (I (i + n)) := by
  induction n generalizing i v with
  | zero => exact pure hv
  | succ n ih =>
    refine bind (turn i v le_rfl (by omega) hv) fun v' hv' => ?_
    rw [show i + (n + 1) = i + 1 + n by omega]
    exact ih (fun j w hj hjn => turn j w (by omega) (by omega)) hv'

/-- A loop of which only the errors matter. -/
theorem loop_any {body : Nat → α → Op α} (turn : ∀ j v, (body j v).Ends ks fun _ => True) (i n : Nat) (v : α) :
    (Op.loop body i n v).Ends ks fun _ => True :=
  loop (I := fun _ _ => True) (fun j v _ _ _ => turn j v) trivial

/-! Slots raise `ChannelFailure` alone (rule R191). -/

section Slots

variable (hks : .channelFailure ∈ ks) (p : Params)
include hks

theorem slot (r : Rate) (b : Byte) : (slot r b).Ends ks fun _ => True := fun c => by
  rw [slot_apply]
  cases c.sendAhead 0 with
  | true => exact .inl ⟨(), rfl, trivial⟩
  | false => exact .inr ⟨_, hks, rfl⟩

theorem receive : receive.Ends ks fun _ => True := fun c => by
  rw [receive_apply]
  cases c.recvAhead 0 with
  | some v => exact .inl ⟨v, rfl, trivial⟩
  | none => exact .inr ⟨_, hks, rfl⟩

theorem busReset : (busReset p).Ends ks fun _ => True :=
  bind (slot hks _ _) fun _ _ => bind (receive hks) fun _ _ => pure trivial

theorem readBit : (readBit p).Ends ks fun _ => True :=
  bind (slot hks _ _) fun _ _ => bind (receive hks) fun _ _ => pure trivial

theorem writeBit (b : Bool) : (writeBit p b).Ends ks fun _ => True := slot hks _ _

theorem writeByte (v : Byte) : (writeByte p v).Ends ks fun _ => True :=
  loop_any (fun _ _ => writeBit hks p _) 0 8 ()

theorem readByte : (readByte p).Ends ks fun _ => True :=
  loop_any (fun _ _ => bind (readBit hks p) fun _ _ => pure trivial) 0 8 0

theorem readPair : (readPair p).Ends ks fun _ => True :=
  bind (readBit hks p) fun _ _ => bind (readBit hks p) fun _ _ => pure trivial

end Slots

theorem resetOrFail (p : Params) : (resetOrFail p).Ends [.channelFailure, .resetFailure] fun _ => True := by
  refine bind (busReset (by decide) p) fun present _ => ?_
  cases present
  · exact raise (by decide)
  · exact pure trivial

theorem readAddress (p : Params) : (readAddress p).Ends [.channelFailure, .resetFailure] fun _ => True :=
  bind (resetOrFail p) fun _ _ => bind (writeByte (by decide) p _) fun _ _ =>
    loop_any (fun _ _ => bind (readByte (by decide) p) fun _ _ => pure trivial) 0 8 0

theorem matchAddress (p : Params) (a : Word64) :
    (matchAddress p a).Ends [.channelFailure, .resetFailure] fun _ => True :=
  bind (resetOrFail p) fun _ _ => bind (writeByte (by decide) p _) fun _ _ =>
    loop_any (fun _ _ => writeByte (by decide) p _) 0 8 ()

theorem skipAddress (p : Params) : (skipAddress p).Ends [.channelFailure, .resetFailure] fun _ => True :=
  bind (resetOrFail p) fun _ _ => writeByte (by decide) p _

end Op.Ends

end Sys2Proof.Machine

/-! ## What a search returns (rules R39, R145 to R149) -/

namespace Sys2Proof.Machine

/-! The highest marked position. -/

theorem lastMarked_congr {mark mark' : Nat → Bool} {n : Nat} (h : ∀ j < n, mark j = mark' j) :
    lastMarked mark n = lastMarked mark' n := by
  induction n with
  | zero => rfl
  | succ n ih => rw [lastMarked, lastMarked, h n n.lt_succ_self, ih fun j hj => h j (Nat.lt_succ_of_lt hj)]

theorem lastMarked_le (mark : Nat → Bool) (n : Nat) : lastMarked mark (n + 1) ≤ n := by
  induction n with
  | zero =>
    rw [lastMarked]
    split <;> rfl
  | succ n ih =>
    rw [lastMarked]
    split
    · exact le_rfl
    · exact Nat.le_succ_of_le ih

theorem toNat_ofNat_lastMarked (mark : Nat → Bool) :
    (BitVec.ofNat 6 (lastMarked mark 64)).toNat = lastMarked mark 64 := by
  have hle : lastMarked mark 64 ≤ 63 := lastMarked_le mark 63
  rw [BitVec.toNat_ofNat, Nat.mod_eq_of_lt (by omega)]

/-- Nothing is marked above the highest marked position. -/
theorem not_marked_of_lastMarked_lt {mark : Nat → Bool} {n j : Nat} (hj : j < n) (h : lastMarked mark n < j) :
    mark j = false := by
  induction n with
  | zero => omega
  | succ n ih =>
    rw [lastMarked] at h
    split at h
    · omega
    · next hn =>
      obtain hlt | rfl := Nat.lt_succ_iff_lt_or_eq.mp hj
      · exact ih hlt h
      · simpa using hn

theorem marked_lastMarked {mark : Nat → Bool} {n j : Nat} (hj : j < n) (h : mark j = true) :
    mark (lastMarked mark n) = true := by
  induction n with
  | zero => omega
  | succ n ih =>
    rw [lastMarked]
    split
    · assumption
    · next hn =>
      obtain hlt | rfl := Nat.lt_succ_iff_lt_or_eq.mp hj
      · exact ih hlt
      · exact absurd h hn

theorem lastMarked_of_unmarked {mark : Nat → Bool} {n : Nat} (h : ∀ j < n, mark j = false) : lastMarked mark n = 0 := by
  induction n with
  | zero => rfl
  | succ n ih => rw [lastMarked, h n n.lt_succ_self, ih fun j hj => h j (Nat.lt_succ_of_lt hj)]; rfl

/-! The working values of a walk, as long as it started from a sound Search State (rule R39). -/

/-- Working values that positions below `n` have made: no discrepancy where the address has a 1 or from `n` on, and the
running index at the highest discrepancy. -/
structure Walk.SoundBelow (n : Nat) (w : Walk) : Prop where
  clear : ∀ j, w.disc.getLsbD j = true → w.addr.getLsbD j = false
  above : ∀ j, n ≤ j → w.disc.getLsbD j = false
  index : w.ldi = BitVec.ofNat 6 (lastMarked w.disc.getLsbD n)

theorem Walk.soundBelow_origin : Walk.SoundBelow 0 ⟨0, 0, 0⟩ where
  clear j hj := by simp at hj
  above j _ := by simp
  index := rfl

/-- Step 6 without a collision: the bit of the address changes, where no discrepancy is recorded (rule R147). -/
theorem Walk.SoundBelow.chosen {i : Nat} {w : Walk} (h : w.SoundBelow i) (b : Bool) :
    Walk.SoundBelow (i + 1) { w with addr := setBit w.addr i b } where
  clear j hj := by
    have hji : j ≠ i := fun hji => by simp [hji, h.above i le_rfl] at hj
    rw [getLsbD_setBit, if_neg (by simp [hji])]
    exact h.clear j hj
  above j hj := h.above j (by omega)
  index := by
    rw [lastMarked, h.above i le_rfl]
    exact h.index

/-- Step 6 with a collision: the 0-branch is taken and the position recorded (rule R147). -/
theorem Walk.SoundBelow.collided {i : Nat} {w : Walk} (h : w.SoundBelow i) (hi : i < 64) :
    Walk.SoundBelow (i + 1) ⟨setBit w.addr i false, setBit w.disc i true, BitVec.ofNat 6 i⟩ where
  clear j hj := by
    rw [getLsbD_setBit] at hj ⊢
    split at hj
    · next hji => rw [if_pos hji]
    · next hji => rw [if_neg hji, h.clear j hj]
  above j hj := by
    rw [getLsbD_setBit, if_neg (by omega)]
    exact h.above j (by omega)
  index := by
    have hmark : (setBit w.disc i true).getLsbD i = true := by rw [getLsbD_setBit, if_pos ⟨rfl, hi⟩]
    rw [lastMarked, if_pos hmark]

/-- What rule R39 says of a Search State that was committed after all 64 positions. -/
theorem Walk.SoundBelow.searchStateSound {w : Walk} (h : w.SoundBelow 64) (s : State)
    (hverify : verify (addressBytes w.addr) = true) : searchStateSound ((Write.searchState w).apply s) := by
  intro _
  have hldi : w.ldi.toNat = lastMarked w.disc.getLsbD 64 := by rw [h.index, toNat_ofNat_lastMarked]
  refine ⟨fun i _ => h.clear i, fun hdisc => ⟨?_, fun i hi hlt => ?_⟩, fun hdisc => ?_, hverify⟩
  · obtain ⟨j, hj⟩ : ∃ j, w.disc.getLsbD j = true := by
      by_contra hnone
      have hzero : w.disc = 0 := BitVec.eq_of_getLsbD_eq fun j _ => by simpa using fun hj => hnone ⟨j, hj⟩
      exact hdisc hzero
    change w.disc.getLsbD w.ldi.toNat = true
    rw [hldi]
    exact marked_lastMarked (BitVec.lt_of_getLsbD hj) hj
  · change w.ldi.toNat < i at hlt
    exact not_marked_of_lastMarked_lt hi (hldi ▸ hlt)
  · change w.disc = 0 at hdisc
    change w.ldi = 0
    rw [h.index, lastMarked_of_unmarked fun j _ => by simp [hdisc]]
    rfl

/-- The working values before position `i`: in the replay the Search State's own, with a running index; after it sound
(rules R39, R145 to R147). -/
def walkSoundAt (s : State) (i : Nat) (w : Walk) : Prop :=
  if s.ssv = true ∧ i ≤ s.ldi.toNat then w = ⟨s.addr, s.disc, BitVec.ofNat 6 (lastMarked s.disc.getLsbD i)⟩
  else w.SoundBelow i

theorem walkSoundAt_of_le {s : State} {i : Nat} {w : Walk} (hssv : s.ssv = true) (hi : i ≤ s.ldi.toNat) :
    walkSoundAt s i w ↔ w = ⟨s.addr, s.disc, BitVec.ofNat 6 (lastMarked s.disc.getLsbD i)⟩ := by
  rw [walkSoundAt, if_pos ⟨hssv, hi⟩]

theorem walkSoundAt_of_not_le {s : State} {i : Nat} {w : Walk} (h : ¬(s.ssv = true ∧ i ≤ s.ldi.toNat)) :
    walkSoundAt s i w ↔ w.SoundBelow i := by
  rw [walkSoundAt, if_neg h]

theorem walkSoundAt_origin (s : State) : walkSoundAt s 0 (searchOrigin s) := by
  cases hssv : s.ssv
  · rw [walkSoundAt_of_not_le (by simp [hssv]), searchOrigin, hssv]
    exact Walk.soundBelow_origin
  · rw [walkSoundAt_of_le hssv (Nat.zero_le _), searchOrigin, hssv]
    rfl

theorem walkSoundAt_replay {s : State} {i : Nat} {w : Walk} (hssv : s.ssv = true) (hi : i < s.ldi.toNat)
    (h : walkSoundAt s i w) :
    walkSoundAt s (i + 1) (if w.disc.getLsbD i then { w with ldi := BitVec.ofNat 6 i } else w) := by
  rw [walkSoundAt_of_le hssv hi.le] at h
  subst h
  rw [walkSoundAt_of_le hssv hi, lastMarked]
  cases s.disc.getLsbD i <;> rfl

/-- Step 5 moves the highest discrepancy from the mask to the address (rules R39, R146). -/
theorem walkSoundAt_forced {s : State} {w : Walk} (hssv : s.ssv = true) (hsound : searchStateSound s)
    (hdisc : s.disc ≠ 0) (h : walkSoundAt s s.ldi.toNat w) :
    walkSoundAt s (s.ldi.toNat + 1)
      { w with addr := setBit w.addr s.ldi.toNat true, disc := setBit w.disc s.ldi.toNat false } := by
  obtain ⟨hclear, htop, -, -⟩ := hsound hssv
  obtain ⟨-, habove⟩ := htop hdisc
  rw [walkSoundAt_of_le hssv le_rfl] at h
  subst h
  rw [walkSoundAt_of_not_le (by omega)]
  have hmask (j : Nat) (hj : j ≠ s.ldi.toNat) :
      (setBit s.disc s.ldi.toNat false).getLsbD j = s.disc.getLsbD j := by
    rw [getLsbD_setBit, if_neg (by simp [hj])]
  have hforced : (setBit s.disc s.ldi.toNat false).getLsbD s.ldi.toNat = false := by
    rw [getLsbD_setBit, if_pos ⟨rfl, s.ldi.isLt⟩]
  refine ⟨fun j hj => ?_, fun j hj => ?_, ?_⟩
  · have hne : j ≠ s.ldi.toNat := fun hne => by simp [hne, hforced] at hj
    rw [hmask j hne] at hj
    rw [getLsbD_setBit, if_neg (by simp [hne])]
    exact hclear j (BitVec.lt_of_getLsbD hj) hj
  · rw [hmask j (by omega)]
    by_cases hlt : j < 64
    · exact habove j hlt hj
    · exact BitVec.getLsbD_of_ge _ _ (by omega)
  · rw [lastMarked, hforced, lastMarked_congr fun j hj => hmask j hj.ne]
    rfl

/-! What each position returns. -/

/-- The errors of a walk (rules R146, R147, R191). -/
abbrev walkErrors : List ErrorKind := [.channelFailure, .unexpectedResponse]

/-- The errors of `SEARCH` (rules R151, R202). -/
abbrev searchErrors : List ErrorKind := [.channelFailure, .checksumMismatch, .unexpectedResponse]

theorem Op.Ends.mono_errors {α : Type} {ks ks' : List ErrorKind} {Q : α → Prop} {o : Op α} (h : o.Ends ks Q)
    (hks : ks ⊆ ks') : o.Ends ks' Q := fun c => (h c).imp_right fun ⟨k, hk, hrun⟩ => ⟨k, hks hk, hrun⟩

theorem Op.Ends.mono {α : Type} {ks : List ErrorKind} {P Q : α → Prop} {o : Op α} (h : o.Ends ks P)
    (hPQ : ∀ v, P v → Q v) : o.Ends ks Q := fun c => (h c).imp_left fun ⟨v, hv, hP⟩ => ⟨v, hv, hPQ v hP⟩

theorem Op.Ends.replayPosition (p : Params) (i : Nat) (w : Walk) :
    (replayPosition p i w).Ends walkErrors
      (· = if w.disc.getLsbD i then { w with ldi := BitVec.ofNat 6 i } else w) :=
  bind (readPair (by decide) p) fun _ _ => bind (writeBit (by decide) p _) fun _ _ => pure rfl

theorem Op.Ends.forcedBranch (p : Params) (q : Nat) (w : Walk) :
    (forcedBranch p q w).Ends walkErrors
      (· = { w with addr := setBit w.addr q true, disc := setBit w.disc q false }) := by
  refine bind (readPair (by decide) p) fun r _ => ?_
  split
  · exact raise (by decide)
  · exact bind (writeBit (by decide) p _) fun _ _ => pure rfl

theorem Op.Ends.resolvePosition (p : Params) (i : Nat) (w : Walk) :
    (resolvePosition p i w).Ends walkErrors fun w' =>
      (∃ b, w' = { w with addr := setBit w.addr i b }) ∨
        w' = ⟨setBit w.addr i false, setBit w.disc i true, BitVec.ofNat 6 i⟩ := by
  refine bind (readPair (by decide) p) fun r _ => ?_
  split
  · exact raise (by decide)
  · exact bind (writeBit (by decide) p _) fun _ _ => pure (.inl ⟨true, rfl⟩)
  · exact bind (writeBit (by decide) p _) fun _ _ => pure (.inl ⟨false, rfl⟩)
  · exact bind (writeBit (by decide) p _) fun _ _ => pure (.inr rfl)

theorem resolvePosition_ends_sound {s : State} {i : Nat} {w : Walk} (hi : i < 64)
    (hpast : ¬(s.ssv = true ∧ i ≤ s.ldi.toNat)) :
    (resolvePosition s.params i w).Ends walkErrors fun w' => walkSoundAt s i w → walkSoundAt s (i + 1) w' := by
  refine (Op.Ends.resolvePosition s.params i w).mono fun w' hw' h => ?_
  rw [walkSoundAt_of_not_le hpast] at h
  rw [walkSoundAt_of_not_le fun ⟨hssv, hle⟩ => hpast ⟨hssv, by omega⟩]
  obtain ⟨b, rfl⟩ | rfl := hw'
  · exact h.chosen b
  · exact h.collided hi

/-- A sound Search State that is not exhausted keeps its walk sound at every position. -/
theorem searchPosition_ends (s : State) {i : Nat} (hi : i < 64) (w : Walk) :
    (searchPosition s i w).Ends walkErrors fun w' =>
      searchStateSound s ∧ ¬(s.ssv = true ∧ s.disc = 0) → walkSoundAt s i w → walkSoundAt s (i + 1) w' := by
  unfold searchPosition
  split_ifs with hssv hlt heq
  · refine (Op.Ends.replayPosition s.params i w).mono fun w' hw' _ h => ?_
    subst hw'
    exact walkSoundAt_replay hssv hlt h
  · refine (Op.Ends.forcedBranch s.params i w).mono fun w' hw' ⟨hsound, hnot⟩ h => ?_
    subst hw' heq
    exact walkSoundAt_forced hssv hsound (fun hdisc => hnot ⟨hssv, hdisc⟩) h
  · exact (resolvePosition_ends_sound hi (by omega)).mono fun w' hw' _ => hw'
  · exact (resolvePosition_ends_sound hi (by simp [hssv])).mono fun w' hw' _ => hw'

theorem walkPositions_ends (s : State) :
    (walkPositions s.params s.ssv s.addr s.disc s.ldi).Ends walkErrors fun w =>
      searchStateSound s ∧ ¬(s.ssv = true ∧ s.disc = 0) → w.SoundBelow 64 := by
  have hldi := s.ldi.isLt
  rw [walkPositions_eq_loop]
  refine (Op.Ends.loop (n := 64)
    (I := fun i w => searchStateSound s ∧ ¬(s.ssv = true ∧ s.disc = 0) → walkSoundAt s i w)
    (fun i w _ hi h => (searchPosition_ends s (by omega) w).mono fun w' hw' hs => hw' hs (h hs))
    fun _ => walkSoundAt_origin s).mono fun w hw hs => ?_
  exact (walkSoundAt_of_not_le (by omega)).mp (hw hs)

theorem checkWalk_ends (w : Walk) :
    (checkWalk w).Ends searchErrors fun found => found = some w ∧ verify (addressBytes w.addr) = true := by
  unfold checkWalk
  split
  · next h => exact .pure ⟨rfl, h⟩
  · exact .raise (by decide)

/-- What a search returns: nothing, or an address that passes the check, with a Search State that is sound if the one it
began from was (rules R39, R149, R151). -/
theorem deviceSearch_ends (s : State) (f : Bool) :
    (deviceSearch s.params f s.ssv s.addr s.disc s.ldi).Ends searchErrors fun found =>
      ∀ w, found = some w →
        verify (addressBytes w.addr) = true ∧ (searchStateSound s → w.SoundBelow 64) := by
  by_cases hexhausted : s.ssv = true ∧ s.disc = 0
  · rw [deviceSearch_of_exhausted f hexhausted.1 hexhausted.2]
    exact .pure nofun
  · rw [deviceSearch_of_not_exhausted f hexhausted]
    refine .bind (.busReset (by decide) _) fun present _ => ?_
    cases present
    · exact .pure nofun
    · refine .bind (.writeByte (by decide) _ _) fun _ _ =>
        .bind ((walkPositions_ends s).mono_errors (by decide)) fun w hw => ?_
      refine (checkWalk_ends w).mono fun found ⟨hfound, hverify⟩ w' hw' => ?_
      obtain rfl : w = w' := Option.some.inj (hfound.symm.trans hw')
      exact ⟨hverify, fun hsound => hw ⟨hsound, hexhausted⟩⟩

end Sys2Proof.Machine

/-! ## What each command writes (rules R25, R32, R38, R202) -/

namespace Sys2Proof.Machine

/-- The errors a command can end with (rule R202). -/
def errorsOf : Instr → List ErrorKind
  | .reset | .writeBit _ | .readBit | .writeByte _ | .readByte => [.channelFailure]
  | .crcCompute _ | .crcVerify _ => []
  | .readAddress | .matchAddress | .skipAddress => [.channelFailure, .resetFailure]
  | .search _ => searchErrors

/-- What a command can write from `s` when it ends without an error (rules R32, R38, R149). -/
def resultOf (s : State) : Instr → Write → Prop
  | .reset, w => ∃ present, w = .flag present
  | .writeBit _, w | .writeByte _, w | .matchAddress, w | .skipAddress, w => w = .flag false
  | .readBit, w | .readByte, w => ∃ v, w = .data v
  | .crcCompute n, w => (∃ v, w = .data v) ∨ (lengthOk n = false ∧ w = .illegal)
  | .crcVerify n, w => (∃ f, w = .flag f) ∨ (lengthOk n = false ∧ w = .illegal)
  | .readAddress, w => ∃ a, w = .addr a
  | .search _, w => w = .flag false ∨
      ∃ x, w = .searchState x ∧ verify (addressBytes x.addr) = true ∧ (searchStateSound s → x.SoundBelow 64)

theorem commandOp_ends (i : Instr) (s : State) : (commandOp s i).Ends (errorsOf i) (resultOf s i) := by
  cases i with
  | reset => exact .bind (.busReset (by decide) _) fun present _ => .pure ⟨present, rfl⟩
  | writeBit b => exact .bind (.writeBit (List.mem_singleton_self _) _ b) fun _ _ => .pure rfl
  | readBit => exact .bind (.readBit (by decide) _) fun r _ => .pure ⟨_, rfl⟩
  | writeByte v => exact .bind (.writeByte (List.mem_singleton_self _) _ v) fun _ _ => .pure rfl
  | readByte => exact .bind (.readByte (by decide) _) fun v _ => .pure ⟨v, rfl⟩
  | crcCompute n | crcVerify n =>
    refine .pure ?_
    cases h : lengthOk n
    · exact .inr ⟨h, rfl⟩
    · exact .inl ⟨_, rfl⟩
  | readAddress => exact .bind (.readAddress _) fun a _ => .pure ⟨a, rfl⟩
  | matchAddress => exact .bind (.matchAddress _ _) fun _ _ => .pure rfl
  | skipAddress => exact .bind (.skipAddress _) fun _ _ => .pure rfl
  | search f =>
    refine .bind (deviceSearch_ends s f) fun found hfound => .pure ?_
    cases found with
    | none => exact .inl rfl
    | some x =>
      obtain ⟨hverify, hsound⟩ := hfound x rfl
      exact .inr ⟨x, rfl, hverify, hsound⟩

/-- Everything a command that answers a next state can have done to the registers. -/
theorem exec_writes {i : Instr} {s t : State} (h : exec i s = .next t) :
    ∃ (w : Write) (c : Channel), t = w.apply (s.setChan c) ∧ (resultOf s i w ∨ ∃ k ∈ errorsOf i, w = .error k) := by
  refine ⟨_, _, exec_next_eq h, ?_⟩
  obtain ⟨w, hrun, hw⟩ | ⟨k, hk, hrun⟩ := commandOp_ends i s s.chan <;> rw [Run.write, hrun]
  · exact .inl hw
  · exact .inr ⟨k, hk, rfl⟩

/-! The Search State (rule R39). -/

/-- Soundness speaks of the Search State alone. -/
theorem searchStateSound_congr {s t : State} (hssv : t.ssv = s.ssv) (haddr : t.addr = s.addr) (hdisc : t.disc = s.disc)
    (hldi : t.ldi = s.ldi) (h : searchStateSound s) : searchStateSound t := by
  unfold searchStateSound
  rw [hssv, haddr, hdisc, hldi]
  exact h

/-- The writes that leave the Search State alone keep it sound. -/
theorem searchStateSound_apply {s : State} (h : searchStateSound s) (c : Channel) {w : Write}
    (haddr : ∀ a, w ≠ .addr a) (hsearch : ∀ x, w ≠ .searchState x) : searchStateSound (w.apply (s.setChan c)) := by
  cases w with
  | addr a => exact absurd rfl (haddr a)
  | searchState x => exact absurd rfl (hsearch x)
  | flag _ | data _ | error _ | illegal => exact searchStateSound_congr rfl rfl rfl rfl h

/-- Settles O31: a command either leaves the Search State alone, or is a search that commits the working values of a walk
whose every position kept them sound. -/
theorem searchStateStaysSound : Obligations.SearchStateStaysSound := by
  intro i s t hi hs h
  obtain ⟨w, c, rfl, hresult | ⟨k, -, rfl⟩⟩ := exec_writes h
  · cases i with
    | readAddress => exact absurd rfl hi
    | reset =>
      obtain ⟨_, rfl⟩ := hresult
      exact searchStateSound_apply hs _ nofun nofun
    | writeBit _ | writeByte _ | matchAddress | skipAddress =>
      obtain rfl := hresult
      exact searchStateSound_apply hs _ nofun nofun
    | readBit | readByte =>
      obtain ⟨_, rfl⟩ := hresult
      exact searchStateSound_apply hs _ nofun nofun
    | crcCompute _ | crcVerify _ =>
      obtain ⟨_, rfl⟩ | ⟨-, rfl⟩ := hresult <;> exact searchStateSound_apply hs _ nofun nofun
    | search _ =>
      obtain rfl | ⟨x, rfl, hverify, hsound⟩ := hresult
      · exact searchStateSound_apply hs _ nofun nofun
      · exact (hsound hs).searchStateSound _ hverify
  · exact searchStateSound_apply hs _ nofun nofun

/-! `STATUS` (rules R25, R32, R202). -/

theorem Write.status_legal (w : Write) :
    w.status.extractLsb' 5 3 = 0 ∧ statusCode w.status ∈ [(0x0 : BitVec 4), 0x1, 0x2, 0x3, 0x4, 0xF] ∧
      (statusFlag w.status = true → statusCode w.status = 0x0) := by
  cases w with
  | flag f => cases f <;> decide
  | data _ | addr _ | searchState _ | illegal => simp only [Write.status]; decide
  | error k => cases k <;> decide

theorem Write.statusLegal_apply (w : Write) (s : State) : statusLegal (w.apply s) := by
  unfold statusLegal
  rw [Write.apply_status]
  exact w.status_legal

/-! The step (rules R5, R28, R34, R90). -/

/-- Everything a step that answers a next state can do. -/
inductive StepEnd (s : State) : State → Prop
  | idle : StepEnd s s
  | command {i : Instr} {rest : List Input} {t : State} (h : exec i (s.setPending rest) = .next t) : StepEnd s t
  | illegal (rest : List Input) : StepEnd s (endIllegal (s.setPending rest))
  | window (a : WindowAccess) (rest : List Input) : StepEnd s (accessWindow a (s.setPending rest))
  | hardwareReset (rest : List Input) : StepEnd s (hardwareReset (s.setPending rest))

theorem step_next {s t : State} (h : step s = .next t) : StepEnd s t := by
  cases hpending : s.pending with
  | nil =>
    rw [step_idle hpending] at h
    cases h
    exact .idle
  | cons a rest =>
    rw [step_input hpending] at h
    cases a with
    | command w =>
      change issue (decode w) _ = _ at h
      cases hdecode : decode w with
      | ok i =>
        rw [hdecode] at h
        exact .command h
      | error e =>
        rw [hdecode] at h
        cases h
        exact .illegal rest
    | window a =>
      cases h
      exact .window a rest
    | hardwareReset =>
      cases h
      exact .hardwareReset rest

/-- An access to the window writes one of the registers the host may write, or records what it read. -/
theorem accessWindow_cases (a : WindowAccess) (s : State) :
    accessWindow a s = s ∨ (∃ v, accessWindow a s = s.setLdi v) ∨ (∃ v, accessWindow a s = s.setSsv v) ∨
      (∃ v, accessWindow a s = s.setAddr v) ∨ (∃ v, accessWindow a s = s.setDisc v) ∨
      (∃ v, accessWindow a s = s.setBuf v) ∨ ∃ v, accessWindow a s = s.pushRead v := by
  cases a with
  | writeByte offset v =>
    simp only [accessWindow, writeWindowByte]
    split_ifs
    · exact .inr (.inl ⟨_, rfl⟩)
    · exact .inr (.inr (.inl ⟨_, rfl⟩))
    · exact .inr (.inr (.inr (.inl ⟨_, rfl⟩)))
    · exact .inr (.inr (.inr (.inr (.inl ⟨_, rfl⟩))))
    · exact .inr (.inr (.inr (.inr (.inr (.inl ⟨_, rfl⟩)))))
    · exact .inl rfl
  | writeWide r v =>
    cases r
    · exact .inr (.inr (.inr (.inl ⟨v, rfl⟩)))
    · exact .inr (.inr (.inr (.inr (.inl ⟨v, rfl⟩))))
  | readByte _ | readWide _ | readCommand => exact .inr (.inr (.inr (.inr (.inr (.inr ⟨_, rfl⟩)))))

/-- No access to the window touches `STATUS`, the channel or the parameters. -/
theorem accessWindow_keeps (a : WindowAccess) (s : State) :
    (accessWindow a s).status = s.status ∧ (accessWindow a s).chan = s.chan ∧ (accessWindow a s).params = s.params := by
  obtain h | ⟨_, h⟩ | ⟨_, h⟩ | ⟨_, h⟩ | ⟨_, h⟩ | ⟨_, h⟩ | ⟨_, h⟩ := accessWindow_cases a s
  all_goals
    rw [h]
    exact ⟨rfl, rfl, rfl⟩

/-- Settles O48: the reset `STATUS` is that of a command that ended with `OK`. -/
theorem resetStatusIsLegal : Obligations.ResetStatusIsLegal := (Write.flag false).status_legal

/-- Settles O47: a step writes `STATUS` as a command's end does, or clears it, or leaves it. -/
theorem stepKeepsStatusLegal : Obligations.StepKeepsStatusLegal := by
  intro s t hs h
  cases step_next h with
  | idle => exact hs
  | command h =>
    rw [exec_next_eq h]
    exact Write.statusLegal_apply _ _
  | illegal rest => exact Write.illegal.statusLegal_apply _
  | window a rest =>
    obtain ⟨hstatus, -, -⟩ := accessWindow_keeps a (s.setPending rest)
    unfold statusLegal
    rw [hstatus]
    exact hs
  | hardwareReset rest => exact (Write.flag false).status_legal

/-- The codes of the table are `OK` and those of the errors a command can end with (rule R202). -/
theorem possibleCodes_eq {i : Instr} : possibleCodes i = codeOk :: (errorsOf i).map codeOf := by cases i <;> rfl

/-- Only the checksum commands with a length that no word encodes are illegal. -/
theorem statusCode_of_resultOf {i : Instr} {s : State} {w : Write} (hwf : i.wellFormed = true) (h : resultOf s i w) :
    statusCode w.status = codeOk := by
  cases w with
  | flag f => exact statusCode_okStatus f
  | data _ | addr _ => exact statusCode_okStatus false
  | searchState _ => exact statusCode_okStatus true
  | error _ => cases i <;> simp [resultOf] at h
  | illegal => cases i <;> simp_all [resultOf, Instr.wellFormed]

/-- Settles O36: a well-formed command writes `OK` or one of its errors. -/
theorem commandsEndWithTheirCodes : Obligations.CommandsEndWithTheirCodes := by
  intro i s t hwf h
  obtain ⟨w, c, rfl, hresult | ⟨k, hk, rfl⟩⟩ := exec_writes h <;> rw [Write.apply_status, possibleCodes_eq]
  · exact List.mem_cons.mpr (.inl (statusCode_of_resultOf hwf hresult))
  · exact List.mem_cons_of_mem _ (List.mem_map.mpr ⟨k, hk, (statusCode_errorStatus k).symm⟩)

/-! Frames (rules R32, R38, R151). -/

/-- Settles O37: each of these commands writes a flag or an error, or is illegal. -/
theorem statusOnlyCommandsFrame : Obligations.StatusOnlyCommandsFrame := by
  intro i s t hi h
  obtain ⟨w, c, rfl, hresult | ⟨k, -, rfl⟩⟩ := exec_writes h
  · obtain (rfl | rfl | rfl) | ⟨b, rfl⟩ | ⟨v, rfl⟩ | ⟨n, rfl⟩ := hi
    case inl.inl =>
      obtain ⟨present, rfl⟩ := hresult
      rfl
    case inr.inr.inr =>
      obtain ⟨f, rfl⟩ | ⟨-, rfl⟩ := hresult <;> rfl
    all_goals
      obtain rfl := hresult
      rfl
  · rfl

/-- Settles O38: each of these commands writes `DATA` or an error, or is illegal. -/
theorem dataCommandsFrame : Obligations.DataCommandsFrame := by
  intro i s t hi h
  obtain ⟨w, c, rfl, hresult | ⟨k, -, rfl⟩⟩ := exec_writes h
  · obtain rfl | rfl | ⟨n, rfl⟩ := hi
    case inr.inr =>
      obtain ⟨v, rfl⟩ | ⟨-, rfl⟩ := hresult <;> exact ⟨statusFlag_statusWord _ false, rfl⟩
    all_goals
      obtain ⟨v, rfl⟩ := hresult
      exact ⟨statusFlag_statusWord _ false, rfl⟩
  · exact ⟨statusFlag_statusWord _ false, rfl⟩

/-- Settles O39: the command writes `ADDR` or an error. -/
theorem readAddressFrame : Obligations.ReadAddressFrame := by
  intro s t h
  obtain ⟨w, c, rfl, ⟨a, rfl⟩ | ⟨k, -, rfl⟩⟩ := exec_writes h
  all_goals exact ⟨statusFlag_statusWord _ false, rfl⟩

/-- Settles O40: the command writes the Search State that it found, whose address passed step 7, or a flag of 0, or one of
its three errors. -/
theorem searchFrame : Obligations.SearchFrame := by
  intro f s t h
  obtain ⟨w, c, rfl, (rfl | ⟨x, rfl, hverify, -⟩) | ⟨k, hk, rfl⟩⟩ := exec_writes h
  · exact .inr ⟨List.mem_cons_self, rfl⟩
  · exact .inl ⟨rfl, hverify, rfl⟩
  · have herror : ∀ k ∈ searchErrors, errorStatus k ∈ [(0x00 : Byte), 0x01, 0x03, 0x04] := by decide
    exact .inr ⟨herror k hk, rfl⟩

/-! The step from its input (rules R5, R28). -/

/-- Settles O57: with no input the step is `idle`. -/
theorem idleBlockHoldsItsState : Obligations.IdleBlockHoldsItsState := fun _ h => step_idle h

/-- Settles O1: a command word is decoded and issued, and a decoded command is run. -/
theorem stepRunsTheDecodedCommand : Obligations.StepRunsTheDecodedCommand := by
  intro s w rest i h hdecode
  rw [step_input h, perform, hdecode]
  rfl

end Sys2Proof.Machine

/-! ## The channel's answers decide a command (rules R10, R52, R67, R72) -/

namespace Sys2Proof.Machine

/-! Events and the answers they carry. -/

/-- The events carry the channel's next answers, in their order (rules R55, R56). -/
def Channel.Answers (c : Channel) (events : List Event) : Prop :=
  sendAnswers events = (List.range (sendAnswers events).length).map c.sendAhead ∧
  recvAnswers events = (List.range (recvAnswers events).length).map c.recvAhead

/-- The channel after these events (rules R10, R67). -/
def Channel.after (c : Channel) (events : List Event) : Channel :=
  c.advance (sendAnswers events).length (recvAnswers events).length events

/-- Two channels that give the same answers from here on. -/
def sameAnswers (c c' : Channel) : Prop :=
  (∀ k, c'.sendAhead k = c.sendAhead k) ∧ ∀ k, c'.recvAhead k = c.recvAhead k

@[simp] theorem Channel.after_nil (c : Channel) : c.after [] = c := c.advance_zero

@[simp] theorem Channel.after_after (c : Channel) (a b : List Event) : (c.after a).after b = c.after (a ++ b) := by
  simp [Channel.after]

@[simp] theorem Channel.after_trace (c : Channel) (es : List Event) : (c.after es).trace = c.trace ++ es :=
  c.advance_trace _ _ es

@[simp] theorem Channel.after_sends (c : Channel) (es : List Event) :
    (c.after es).sends = c.sends + (sendAnswers es).length := rfl

theorem Channel.answers_nil (c : Channel) : c.Answers [] := ⟨rfl, rfl⟩

theorem Channel.Answers.append {c : Channel} {a b : List Event} (ha : c.Answers a) (hb : (c.after a).Answers b) :
    c.Answers (a ++ b) := by
  obtain ⟨haSend, haRecv⟩ := ha
  obtain ⟨hbSend, hbRecv⟩ := hb
  constructor
  · rw [sendAnswers_append, List.length_append, List.range_add, List.map_append, ← haSend, List.map_map]
    conv_lhs => rw [hbSend]
    simp [Channel.after, Function.comp_def]
  · rw [recvAnswers_append, List.length_append, List.range_add, List.map_append, ← haRecv, List.map_map]
    conv_lhs => rw [hbRecv]
    simp [Channel.after, Function.comp_def]

theorem sameAnswers_refl (c : Channel) : sameAnswers c c := ⟨fun _ => rfl, fun _ => rfl⟩

theorem sameAnswers.after {c c' : Channel} (h : sameAnswers c c') (es : List Event) :
    sameAnswers (c.after es) (c'.after es) :=
  ⟨fun k => by simpa [Channel.after] using h.1 _, fun k => by simpa [Channel.after] using h.2 _⟩

/-! What is put together from slots does the same on every channel with the same answers. -/

/-- From each channel the operation makes events with the channel's next answers, and it does so, and ends alike, from
every other channel that gives the same answers. -/
def Op.FollowsAnswers {α : Type} (o : Op α) : Prop :=
  ∀ c, ∃ outcome es, c.Answers es ∧ ∀ c', sameAnswers c c' → o c' = ⟨outcome, c'.after es⟩

namespace Op.FollowsAnswers

variable {α β : Type}

theorem pure (v : α) : (Op.pure v).FollowsAnswers := fun c =>
  ⟨.ok v, [], c.answers_nil, fun c' _ => by rw [Op.pure_apply, Channel.after_nil]⟩

theorem raise (k : ErrorKind) : (Op.raise k : Op α).FollowsAnswers := fun c =>
  ⟨.error k, [], c.answers_nil, fun c' _ => by rw [Op.raise_apply, Channel.after_nil]⟩

theorem bind {o : Op α} {f : α → Op β} (first : o.FollowsAnswers) (second : ∀ v, (f v).FollowsAnswers) :
    (o.bind f).FollowsAnswers := by
  intro c
  obtain ⟨outcome, es, hes, ho⟩ := first c
  cases outcome with
  | error k => exact ⟨.error k, es, hes, fun c' h => Op.bind_of_error (ho c' h)⟩
  | ok v =>
    obtain ⟨outcome', es', hes', hf⟩ := second v (c.after es)
    refine ⟨outcome', es ++ es', hes.append hes', fun c' h => ?_⟩
    rw [Op.bind_of_ok (ho c' h), hf _ (h.after es), Channel.after_after]

theorem slot (r : Rate) (b : Byte) : (slot r b).FollowsAnswers := fun c => by
  refine ⟨(Machine.slot r b c).outcome, [.rate r, .flush, .send b (c.sendAhead 0)],
    ⟨by simp [sendAnswers], by simp [recvAnswers]⟩, fun c' h => ?_⟩
  rw [slot_apply, slot_apply, h.1]
  rfl

theorem receive : receive.FollowsAnswers := fun c => by
  refine ⟨(Machine.receive c).outcome, [.recv (c.recvAhead 0)], ⟨by simp [sendAnswers], by simp [recvAnswers]⟩,
    fun c' h => ?_⟩
  rw [receive_apply, receive_apply, h.2]
  rfl

theorem slot_bind_receive (r : Rate) (b : Byte) (f : Byte → α) :
    ((Machine.slot r b).bind fun _ => Machine.receive.bind fun v => .pure (f v)).FollowsAnswers :=
  bind (slot r b) fun _ => bind receive fun v => pure (f v)

end Op.FollowsAnswers

theorem Op.OfSlots.followsAnswers {p : Params} {α : Type} {o : Op α} (ho : o.OfSlots p) : o.FollowsAnswers := by
  induction ho with
  | pure v => exact .pure v
  | raise => exact .raise _
  | busReset => exact .slot_bind_receive .slow p.resetPattern _
  | writeBit b => exact .slot .fast _
  | readBit => exact .slot_bind_receive .fast readByteOut _
  | bind _ _ ihFirst ihSecond => exact .bind ihFirst ihSecond

theorem Op.OfSlots.chan_eq_after {p : Params} {α : Type} {o : Op α} (ho : o.OfSlots p) (c : Channel) :
    ∃ es, c.Answers es ∧ (o c).chan = c.after es := by
  obtain ⟨outcome, es, hes, hrun⟩ := ho.followsAnswers c
  exact ⟨es, hes, by rw [hrun c (sameAnswers_refl c)]⟩

/-- A command that answers a next state leaves the channel after events with its next answers. -/
theorem exec_chan_eq_after {i : Instr} {s t : State} (h : exec i s = .next t) :
    ∃ es, s.chan.Answers es ∧ t.chan = s.chan.after es := by
  rw [exec_next_chan h]
  exact (commandOp_ofSlots i s).chan_eq_after s.chan

/-- Settles O41: a command's sub-operation follows the answers of its channel. -/
theorem channelFrame : Obligations.ChannelFrame := by
  refine ⟨fun i s t h => ?_, fun i n s t hi h => chan_of_checksum_next hi h⟩
  obtain ⟨es, ⟨hsend, hrecv⟩, hchan⟩ := exec_chan_eq_after h
  exact ⟨es, hchan, hsend, hrecv⟩

theorem exec_params {i : Instr} {s t : State} (h : exec i s = .next t) : t.params = s.params := by
  obtain ⟨w, c, rfl, -⟩ := exec_writes h
  rw [Write.apply_params, State.setChan_params]

/-- Settles O49: of the steps only a command touches the channel, and it appends events. -/
theorem stepKeepsParametersAndHistory : Obligations.StepKeepsParametersAndHistory := by
  intro s t h
  cases step_next h with
  | idle => exact ⟨rfl, rfl, rfl, rfl, List.prefix_rfl⟩
  | command h =>
    obtain ⟨es, -, hchan⟩ := exec_chan_eq_after h
    rw [exec_params h, hchan, Channel.after_trace]
    exact ⟨rfl, rfl, rfl, rfl, List.prefix_append _ _⟩
  | illegal rest => exact ⟨rfl, rfl, rfl, rfl, List.prefix_rfl⟩
  | window a rest =>
    obtain ⟨-, hchan, hparams⟩ := accessWindow_keeps a (s.setPending rest)
    rw [hchan, hparams]
    exact ⟨rfl, rfl, rfl, rfl, List.prefix_rfl⟩
  | hardwareReset rest => exact ⟨rfl, rfl, rfl, rfl, List.prefix_rfl⟩

/-! Two runs with the same operands and the same answers (rule R10). -/

/-- A command reads no register but its operands (rules R27, R82). -/
theorem commandOp_congr {s u : State} (hparams : u.params = s.params) (hssv : u.ssv = s.ssv) (haddr : u.addr = s.addr)
    (hdisc : u.disc = s.disc) (hldi : u.ldi = s.ldi) (hbuf : u.buf = s.buf) (i : Instr) :
    commandOp u i = commandOp s i := by
  cases i <;> simp only [commandOp, bufPrefix, hparams, hssv, haddr, hdisc, hldi, hbuf]

/-- A write leaves equal Search States equal. -/
theorem Write.apply_searchState_congr (w : Write) {s u : State} (hssv : u.ssv = s.ssv) (haddr : u.addr = s.addr)
    (hdisc : u.disc = s.disc) (hldi : u.ldi = s.ldi) :
    (w.apply u).ssv = (w.apply s).ssv ∧ (w.apply u).addr = (w.apply s).addr ∧
      (w.apply u).disc = (w.apply s).disc ∧ (w.apply u).ldi = (w.apply s).ldi := by
  cases w with
  | flag _ | data _ | error _ | illegal => exact ⟨hssv, haddr, hdisc, hldi⟩
  | addr _ => exact ⟨hssv, rfl, hdisc, hldi⟩
  | searchState _ => exact ⟨rfl, rfl, rfl, rfl⟩

/-- `DATA` is written alike or not at all. -/
theorem Write.apply_data_congr (w : Write) (s u : State) :
    (w.apply u).data = (w.apply s).data ∨ ((w.apply s).data = s.data ∧ (w.apply u).data = u.data) := by
  cases w with
  | data _ => exact .inl rfl
  | flag _ | addr _ | searchState _ | error _ | illegal => exact .inr ⟨rfl, rfl⟩

/-- Settles O46: the two runs end alike after the same events, so they carry out the same write. -/
theorem answersDecideTheRun : Obligations.AnswersDecideTheRun := by
  intro i s u t hparams hssv haddr hdisc hldi hbuf _ hret hsend hrecv h
  obtain ⟨outcome, es, -, hrun⟩ := (commandOp_ofSlots i s).followsAnswers s.chan
  have ht := exec_next_eq h
  rw [hrun _ (sameAnswers_refl _)] at ht
  have hu := exec_of_returns i hret
  rw [commandOp_congr hparams hssv haddr hdisc hldi hbuf, hrun _ ⟨hsend, hrecv⟩] at hu
  subst ht
  obtain ⟨hssv', haddr', hdisc', hldi'⟩ := Write.apply_searchState_congr _ (s := s.setChan (s.chan.after es))
    (u := u.setChan (u.chan.after es)) hssv haddr hdisc hldi
  refine ⟨_, es, hu, ?_, ?_, ?_, hssv', haddr', hdisc', hldi', ?_, Write.apply_data_congr _ _ _⟩
  · simp
  · simp
  · rw [Write.apply_status, Write.apply_status]
    rfl
  · simpa using hbuf

/-! Hangs (rule R72, U12). -/

theorem hangs_eq_true_iff (a b : Channel) :
    hangs a b = true ↔ ∃ n, a.hangAt = some n ∧ a.sends ≤ n ∧ n < b.sends := by
  unfold hangs
  cases a.hangAt <;> simp

theorem exec_of_hangs {i : Instr} {s : State} (h : hangs s.chan (commandOp s i s.chan).chan = true) :
    exec i s = .fault .channelHang := by
  rw [exec_eq_runCommand, runCommand, h]

theorem exec_of_not_hangs {i : Instr} {s : State} (h : hangs s.chan (commandOp s i s.chan).chan = false) :
    exec i s = .next ((commandOp s i s.chan).write.apply (s.setChan (commandOp s i s.chan).chan)) := by
  rw [exec_eq_runCommand, runCommand, h, settle_eq_apply]

/-- A command that makes a send hangs where its first send never returns. -/
theorem exec_of_first_send_hangs {i : Instr} {s : State} (hhang : s.chan.hangAt = some s.chan.sends)
    (hsends : s.chan.sends < (commandOp s i s.chan).chan.sends) : exec i s = .fault .channelHang :=
  exec_of_hangs ((hangs_eq_true_iff _ _).mpr ⟨_, hhang, le_rfl, hsends⟩)

/-! Which commands make a send. -/

/-- On every channel the operation makes a send. -/
abbrev Op.MakesSend {α : Type} (o : Op α) : Prop := o.Within fun c c' => c.sends < c'.sends

theorem Op.OfSlots.sends_le {p : Params} {α : Type} {o : Op α} (ho : o.OfSlots p) (c : Channel) :
    c.sends ≤ (o c).chan.sends := by
  obtain ⟨es, -, h⟩ := ho.chan_eq_after c
  rw [h]
  exact Nat.le_add_right _ _

/-- A send made first stays made. -/
theorem Op.MakesSend.bind {p : Params} {α β : Type} {o : Op α} {f : α → Op β} (first : o.MakesSend)
    (second : ∀ v, (f v).OfSlots p) : (o.bind f).MakesSend := by
  intro c
  have hfirst := first c
  obtain ⟨v, c', ho, e⟩ | ⟨k, c', ho, e⟩ := Op.bind_cases o f c <;> rw [ho] at hfirst <;> rw [e]
  · exact hfirst.trans_le ((second v).sends_le c')
  · exact hfirst

theorem busReset_makesSend (p : Params) : (busReset p).MakesSend := fun c => by
  change c.sends < (busReset p c).chan.sends
  rw [busReset_sends]
  exact Nat.lt_succ_self _

theorem writeBit_makesSend (p : Params) (b : Bool) : (writeBit p b).MakesSend := fun c => by
  change c.sends < (writeBit p b c).chan.sends
  rw [writeBit_apply]
  exact Nat.lt_succ_self _

theorem readBit_makesSend (p : Params) : (readBit p).MakesSend := fun c => by
  change c.sends < (readBit p c).chan.sends
  rw [readBit_chan]
  split <;> exact Nat.lt_succ_self _

theorem resetOrFail_makesSend (p : Params) : (resetOrFail p).MakesSend := by
  refine (busReset_makesSend p).bind (p := p) fun present => ?_
  cases present
  · exact .raise (by decide)
  · exact .pure ()

/-- Every command makes a send but the checksum commands and an exhausted search. -/
theorem commandOp_makesSend {i : Instr} {s : State} (hcrc : ∀ n, i ≠ .crcCompute n ∧ i ≠ .crcVerify n)
    (hsearch : ∀ f, i = .search f → ¬(s.ssv = true ∧ s.disc = 0)) : (commandOp s i).MakesSend := by
  have hpure {α : Type} (w : α → Write) (v : α) : (Op.pure (w v)).OfSlots s.params := .pure _
  cases i with
  | reset => exact (busReset_makesSend _).bind (hpure _)
  | writeBit b => exact (writeBit_makesSend _ b).bind (hpure _)
  | readBit => exact (readBit_makesSend _).bind (hpure _)
  | writeByte v =>
    exact ((writeBit_makesSend _ _).bind fun _ => .loop (fun i _ => .writeBit _) 1 7 ()).bind (hpure _)
  | readByte =>
    have hfirst : (readBitInto s.params 0 0).MakesSend := (readBit_makesSend _).bind (p := s.params) fun _ => .pure _
    exact (hfirst.bind fun _ => .loop (fun _ _ => .bind .readBit fun _ => .pure _) 1 7 _).bind (hpure _)
  | crcCompute n => exact absurd rfl (hcrc n).1
  | crcVerify n => exact absurd rfl (hcrc n).2
  | readAddress =>
    exact ((resetOrFail_makesSend _).bind fun _ => .bind (.writeByte _) fun _ =>
      .loop (fun _ _ => .bind .readByte fun _ => .pure _) 0 8 0).bind (hpure _)
  | matchAddress =>
    exact ((resetOrFail_makesSend _).bind fun _ => .bind (.writeByte _) fun _ =>
      .loop (fun k _ => .writeByte _) 0 8 ()).bind (hpure _)
  | skipAddress => exact ((resetOrFail_makesSend _).bind fun _ => .writeByte _).bind (hpure _)
  | search f =>
    rw [commandOp, deviceSearch_of_not_exhausted f (hsearch f rfl)]
    exact Op.MakesSend.bind (reset_bind_searchAfterReset_sends_lt s f) (hpure _)

/-- A command does not read which send hangs. -/
theorem commandOp_withoutHang (s : State) (i : Instr) : commandOp s.withoutHang i = commandOp s i := rfl

/-- Settles O34: a command's sub-operation does not read which send hangs, so it makes the same sends and ends alike
whatever the hang is; the command then hangs exactly on a send that was made. -/
theorem onlyAHangStopsACommand : Obligations.OnlyAHangStopsACommand := by
  refine ⟨fun i s t h => ?_, fun i s hhang hcrc hsearch => ?_, fun i s r h => ?_, fun i s r h => ?_⟩
  · obtain ⟨outcome, es, -, hrun⟩ := (commandOp_ofSlots i s).followsAnswers s.chan
    have hs := hrun _ (sameAnswers_refl _)
    have ht := exec_next_eq h
    rw [commandOp_withoutHang, hrun s.withoutHang.chan ⟨fun _ => rfl, fun _ => rfl⟩] at ht
    have hsends : t.chan.sends = (commandOp s i s.chan).chan.sends := by rw [ht, hs]; simp
    rw [hsends]
    refine ⟨fun n hhang hle hlt => ?_, fun hno => ?_⟩
    · exact exec_of_hangs ((hangs_eq_true_iff _ _).mpr ⟨n, hhang, hle, hlt⟩)
    · have hnot : hangs s.chan (commandOp s i s.chan).chan = false := by
        rw [Bool.eq_false_iff, ne_eq, hangs_eq_true_iff]
        rintro ⟨n, hhang, hle, hlt⟩
        exact absurd (hno n hhang) (by omega)
      rw [exec_of_not_hangs hnot, hs, ht, ← Write.apply_setChan, Write.apply_chan]
      rfl
  · exact exec_of_first_send_hangs hhang (commandOp_makesSend hcrc hsearch s.chan)
  · rw [exec_eq_runCommand] at h
    obtain ⟨hr, hhangs⟩ := runCommand_fault h
    obtain ⟨n, hhang, hle, -⟩ := (hangs_eq_true_iff _ _).mp hhangs
    exact ⟨hr, n, hhang, hle⟩
  · rw [exec_eq_runCommand, runCommand] at h
    split at h <;> cases h

end Sys2Proof.Machine

/-! ## How many events a command makes (rules R72, R150) -/

namespace Sys2Proof.Machine

/-- A run makes at most `n` events, and exactly `n` when it returns. -/
structure Run.Spends {α : Type} (n : Nat) (c : Channel) (r : Run α) : Prop where
  bound : r.chan.trace.length ≤ c.trace.length + n
  exact : ∀ v, r.outcome = .ok v → r.chan.trace.length = c.trace.length + n

/-- On every channel, at most `n` events, and exactly `n` when the operation returns. -/
def Op.Spends {α : Type} (n : Nat) (o : Op α) : Prop := ∀ c, (o c).Spends n c

namespace Op.Spends

variable {α β : Type} {n m : Nat}

theorem pure (v : α) : (Op.pure v).Spends 0 := fun _ => ⟨le_rfl, fun _ _ => rfl⟩

theorem raise (n : Nat) (k : ErrorKind) : (Op.raise k : Op α).Spends n := fun _ => ⟨Nat.le_add_right _ _, nofun⟩

theorem bind {o : Op α} {f : α → Op β} (first : o.Spends n) (second : ∀ v, (f v).Spends m) :
    (o.bind f).Spends (n + m) := by
  intro c
  have hfirst := first c
  obtain ⟨v, c', ho, e⟩ | ⟨k, c', ho, e⟩ := Op.bind_cases o f c <;> rw [ho] at hfirst <;> rw [e]
  · have hsecond := second v c'
    have hexact := hfirst.exact v rfl
    refine ⟨?_, fun w hw => ?_⟩
    · have := hsecond.bound
      simp only at hexact
      omega
    · have := hsecond.exact w hw
      simp only at hexact
      omega
  · exact ⟨hfirst.bound.trans (by omega), nofun⟩

theorem loop {body : Nat → α → Op α} {k : Nat} (turn : ∀ i v, (body i v).Spends k) (i n : Nat) (v : α) :
    (Op.loop body i n v).Spends (n * k) := by
  induction n generalizing i v with
  | zero => exact (Nat.zero_mul k).symm ▸ pure v
  | succ n ih =>
    rw [Nat.succ_mul, Nat.add_comm]
    exact bind (turn i v) fun v' => ih (i + 1) v'

theorem slot (r : Rate) (b : Byte) : (slot r b).Spends 3 := fun c => by
  rw [slot_apply]
  exact ⟨by simp, fun _ _ => by simp⟩

theorem receive : receive.Spends 1 := fun c => by
  rw [receive_apply]
  exact ⟨by simp, fun _ _ => by simp⟩

theorem busReset (p : Params) : (busReset p).Spends 4 := bind (slot _ _) fun _ => bind receive fun _ => pure _

theorem readBit (p : Params) : (readBit p).Spends 4 := bind (slot _ _) fun _ => bind receive fun _ => pure _

theorem writeBit (p : Params) (b : Bool) : (writeBit p b).Spends 3 := slot _ _

theorem writeByte (p : Params) (v : Byte) : (writeByte p v).Spends 24 := loop (fun _ _ => writeBit p _) 0 8 ()

theorem readByte (p : Params) : (readByte p).Spends 32 := loop (fun _ _ => bind (readBit p) fun _ => pure _) 0 8 0

theorem readPair (p : Params) : (readPair p).Spends 8 := bind (readBit p) fun _ => bind (readBit p) fun _ => pure _

theorem resetOrFail (p : Params) : (resetOrFail p).Spends 4 := by
  refine bind (m := 0) (busReset p) fun present => ?_
  cases present
  · exact raise 0 _
  · exact pure ()

theorem replayPosition (p : Params) (i : Nat) (w : Walk) : (replayPosition p i w).Spends 11 :=
  bind (readPair p) fun _ => bind (writeBit p _) fun _ => pure _

theorem forcedBranch (p : Params) (q : Nat) (w : Walk) : (forcedBranch p q w).Spends 11 := by
  refine bind (m := 3) (readPair p) fun r => ?_
  split
  · exact raise 3 _
  · exact bind (writeBit p _) fun _ => pure _

theorem chooseBit (p : Params) (i : Nat) (b : Bool) (w : Walk) : (chooseBit p i b w).Spends 3 :=
  bind (writeBit p b) fun _ => pure _

theorem resolvePosition (p : Params) (i : Nat) (w : Walk) : (resolvePosition p i w).Spends 11 := by
  refine bind (m := 3) (readPair p) fun r => ?_
  split
  · exact raise 3 _
  all_goals exact chooseBit p i _ _

theorem searchPosition (s : State) (i : Nat) (w : Walk) : (searchPosition s i w).Spends 11 := by
  unfold Machine.searchPosition
  split_ifs
  · exact replayPosition _ _ _
  · exact forcedBranch _ _ _
  · exact resolvePosition _ _ _
  · exact resolvePosition _ _ _

theorem walkPositions (s : State) : (walkPositions s.params s.ssv s.addr s.disc s.ldi).Spends 704 := by
  rw [walkPositions_eq_loop]
  exact loop (searchPosition s) 0 64 _

end Op.Spends

theorem checkWalk_chan (w : Walk) (c : Channel) : (checkWalk w c).chan = c := by
  unfold checkWalk
  split <;> rfl

/-- The command byte and the walk of a search that met presence (rules R143 to R147). -/
def searchWalk (s : State) (f : Bool) : Op Walk :=
  (writeByte s.params (searchCommandByte s.params f)).bind fun _ => walkPositions s.params s.ssv s.addr s.disc s.ldi

theorem searchAfterReset_present (s : State) (f : Bool) :
    searchAfterReset s f true = (searchWalk s f).bind checkWalk := (Op.bind_assoc _ _ _).symm

theorem searchWalk_spends (s : State) (f : Bool) : (searchWalk s f).Spends 728 :=
  .bind (.writeByte _ _) fun _ => .walkPositions s

theorem searchWalk_ends (s : State) (f : Bool) : (searchWalk s f).Ends walkErrors fun _ => True :=
  .bind (P := fun _ => True) (.writeByte (by decide) _ _) fun _ _ => (walkPositions_ends s).mono fun _ _ => trivial

/-- A search that met presence. -/
theorem searchAfterReset_trace_length_le (s : State) (f present : Bool) (c : Channel) :
    (searchAfterReset s f present c).chan.trace.length ≤ c.trace.length + 728 := by
  cases present
  · exact Nat.le_add_right _ _
  · rw [searchAfterReset_present]
    have hbound := (searchWalk_spends s f c).bound
    obtain ⟨w, c', ho, e⟩ | ⟨k, c', ho, e⟩ := Op.bind_cases (searchWalk s f) checkWalk c <;> rw [ho] at hbound <;> rw [e]
    · rw [checkWalk_chan]
      exact hbound
    · exact hbound

theorem deviceSearch_trace_length_le (s : State) (f : Bool) (c : Channel) :
    (deviceSearch s.params f s.ssv s.addr s.disc s.ldi c).chan.trace.length ≤ c.trace.length + 732 := by
  by_cases hexhausted : s.ssv = true ∧ s.disc = 0
  · rw [deviceSearch_of_exhausted f hexhausted.1 hexhausted.2]
    exact Nat.le_add_right _ _
  · rw [deviceSearch_of_not_exhausted f hexhausted]
    have hreset := (Op.Spends.busReset s.params c).bound
    obtain ⟨present, c', ho, e⟩ | ⟨k, c', ho, e⟩ := Op.bind_cases (busReset s.params) (searchAfterReset s f) c <;>
      rw [ho] at hreset <;> rw [e]
    · have := searchAfterReset_trace_length_le s f present c'
      simp only at hreset
      omega
    · exact hreset.trans (by omega)

/-- The outcomes of a search that reached step 7 (rule R149). -/
def reachedCheck (outcome : Except ErrorKind (Option Walk)) : Prop :=
  (∃ w, outcome = .ok (some w)) ∨ outcome = .error .checksumMismatch

theorem not_reachedCheck_error {k : ErrorKind} (hk : k ∈ walkErrors) : ¬reachedCheck (Except.error k) := by
  rintro (⟨w, hw⟩ | hmismatch)
  · cases hw
  · cases hmismatch
    exact absurd hk (by decide)

theorem Op.Ends.error_mem {α : Type} {ks : List ErrorKind} {Q : α → Prop} {o : Op α} {c c' : Channel} {k : ErrorKind}
    (h : o.Ends ks Q) (ho : o c = ⟨.error k, c'⟩) : k ∈ ks := by
  obtain ⟨v, hv, -⟩ | ⟨k', hk', hrun⟩ := h c
  · rw [ho] at hv
    cases hv
  · rw [ho] at hrun
    cases hrun
    exact hk'

/-- Only the whole walk leads to step 7, which makes no event itself (rules R149, R150). -/
theorem deviceSearch_trace_length_of_reachedCheck {s : State} {f : Bool} {c : Channel}
    (h : reachedCheck (deviceSearch s.params f s.ssv s.addr s.disc s.ldi c).outcome) :
    (deviceSearch s.params f s.ssv s.addr s.disc s.ldi c).chan.trace.length = c.trace.length + 732 := by
  have hnone : ¬reachedCheck (.ok none) := by simp [reachedCheck]
  by_cases hexhausted : s.ssv = true ∧ s.disc = 0
  · rw [deviceSearch_of_exhausted f hexhausted.1 hexhausted.2] at h
    exact absurd h hnone
  rw [deviceSearch_of_not_exhausted f hexhausted] at h ⊢
  obtain ⟨present, c', hreset, e⟩ | ⟨k, c', hreset, e⟩ := Op.bind_cases (busReset s.params) (searchAfterReset s f) c <;>
    rw [e] at h ⊢
  case inr =>
    exact absurd h (not_reachedCheck_error (Op.Ends.error_mem (.busReset (by decide) _) hreset))
  cases present
  case false => exact absurd h hnone
  rw [searchAfterReset_present] at h ⊢
  obtain ⟨w, c'', hwalk, e'⟩ | ⟨k, c'', hwalk, e'⟩ := Op.bind_cases (searchWalk s f) checkWalk c' <;> rw [e'] at h ⊢
  case inr => exact absurd h (not_reachedCheck_error ((searchWalk_ends s f).error_mem hwalk))
  have hfour := (Op.Spends.busReset s.params c).exact true (by rw [hreset])
  have hrest := (searchWalk_spends s f c').exact w (by rw [hwalk])
  rw [hreset] at hfour
  rw [hwalk] at hrest
  rw [checkWalk_chan]
  simp only at hfour hrest
  omega

/-- Settles O32: both codes are written after step 7 alone, which the whole walk leads to. -/
theorem searchToStepSevenMakes732Events : Obligations.SearchToStepSevenMakes732Events := by
  intro f s t h hstatus
  rw [exec_search] at h
  obtain ⟨found, hrun, rfl⟩ | ⟨k, hrun, rfl⟩ := runCommand_next h
  · rw [commitSearch_chan]
    refine deviceSearch_trace_length_of_reachedCheck ?_
    rw [hrun]
    cases found with
    | some w => exact .inl ⟨w, rfl⟩
    | none => exact absurd hstatus (show ¬((0x00 : Byte) = 0x10 ∨ (0x00 : Byte) = 0x03) by decide)
  · refine deviceSearch_trace_length_of_reachedCheck ?_
    rw [hrun]
    have hmismatch : ∀ k, errorStatus k = 0x10 ∨ errorStatus k = 0x03 → k = .checksumMismatch := by
      intro k
      cases k <;> decide
    exact .inr (congrArg _ (hmismatch k hstatus))

/-! Every command (rule R72). -/

/-- The write at the end makes no event. -/
theorem Op.bind_pure_chan {α β : Type} (o : Op α) (g : α → β) (c : Channel) :
    ((o.bind fun v => .pure (g v)) c).chan = (o c).chan := by
  obtain ⟨v, c', ho, e⟩ | ⟨k, c', ho, e⟩ := Op.bind_cases o (fun v => Op.pure (g v)) c <;> rw [e, ho]
  rfl

theorem commandOp_trace_length_le (i : Instr) (s : State) (c : Channel) :
    (commandOp s i c).chan.trace.length ≤ c.trace.length + eventBound i := by
  cases i with
  | crcCompute n | crcVerify n => exact le_rfl
  | reset => exact (Op.bind_pure_chan _ _ c).symm ▸ (Op.Spends.busReset _ c).bound
  | writeBit b => exact (Op.bind_pure_chan _ _ c).symm ▸ (Op.Spends.writeBit _ b c).bound
  | readBit => exact (Op.bind_pure_chan _ _ c).symm ▸ (Op.Spends.readBit _ c).bound
  | writeByte v => exact (Op.bind_pure_chan _ _ c).symm ▸ (Op.Spends.writeByte _ v c).bound
  | readByte => exact (Op.bind_pure_chan _ _ c).symm ▸ (Op.Spends.readByte _ c).bound
  | readAddress =>
    have hread : (readAddress s.params).Spends 284 :=
      .bind (.resetOrFail _) fun _ => .bind (.writeByte _ _) fun _ =>
        .loop (fun _ _ => .bind (.readByte _) fun _ => .pure _) 0 8 0
    exact (Op.bind_pure_chan _ _ c).symm ▸ (hread c).bound
  | matchAddress =>
    have hmatch : (matchAddress s.params s.addr).Spends 220 :=
      .bind (.resetOrFail _) fun _ => .bind (.writeByte _ _) fun _ => .loop (fun _ _ => .writeByte _ _) 0 8 ()
    exact (Op.bind_pure_chan _ _ c).symm ▸ (hmatch c).bound
  | skipAddress =>
    have hskip : (skipAddress s.params).Spends 28 := .bind (.resetOrFail _) fun _ => .writeByte _ _
    exact (Op.bind_pure_chan _ _ c).symm ▸ (hskip c).bound
  | search f => exact (Op.bind_pure_chan _ _ c).symm ▸ deviceSearch_trace_length_le s f c

/-- Settles O33: where every call returns a command ends, and its sub-operation appends no more events than its bound. -/
theorem everyCommandEnds : Obligations.EveryCommandEnds := by
  intro i s hret
  have hexec := exec_of_returns i hret
  obtain ⟨es, -, hchan⟩ := exec_chan_eq_after hexec
  have htrace := congrArg Channel.trace hchan
  have hbound := commandOp_trace_length_le i s s.chan
  rw [← exec_next_chan hexec, htrace, Channel.after_trace, List.length_append] at hbound
  exact ⟨_, es, hexec, htrace.trans (Channel.after_trace _ _), by omega⟩

end Sys2Proof.Machine

/-! ## Rates and flushes (rules R33, R54, R105, R236) -/

namespace Sys2Proof.Machine

/-! The last selected rate of a trace. -/

/-- The rate an event selects. -/
def Event.rate? : Event → Option Rate
  | .rate r => some r
  | .flush => none
  | .send _ _ => none
  | .recv _ => none

theorem lastRate_concat (trace : List Event) (e : Event) : lastRate (trace ++ [e]) = e.rate?.or (lastRate trace) := by
  cases e <;> simp [lastRate, Event.rate?]

@[simp] theorem lastRate_append (a b : List Event) : lastRate (a ++ b) = (lastRate b).or (lastRate a) := by
  induction b using List.reverseRecOn with
  | nil => rw [List.append_nil]; rfl
  | append_singleton b e ih => rw [← List.append_assoc, lastRate_concat, ih, lastRate_concat, Option.or_assoc]

/-- A slot selects its rate (rule R105). -/
theorem lastRate_of_legalSlot {p : Params} {x : List Event} (h : legalSlot p x = true) :
    lastRate x = some (if x.head? = some (.rate .slow) then .slow else .fast) := by
  unfold legalSlot at h
  split at h
  case h_5 => cases h
  all_goals rfl

/-- After slots, the rate is that of the last one. -/
theorem lastRate_of_getLast? {p : Params} {slots : List (List Event)} (hlegal : ∀ x ∈ slots, legalSlot p x = true)
    {x : List Event} (hlast : slots.getLast? = some x) (trace : List Event) :
    lastRate (trace ++ slots.flatten) = some (if x.head? = some (.rate .slow) then .slow else .fast) := by
  obtain ⟨init, rfl⟩ := List.getLast?_eq_some_iff.mp hlast
  rw [List.flatten_append, List.flatten_singleton, lastRate_append, lastRate_append,
    lastRate_of_legalSlot (hlegal x (by simp))]
  rfl

/-! A reset leaves SLOW, and what is made of bit slots leaves FAST or makes no send. -/

/-- Nothing was done, or a send was made and the rate left is FAST. -/
def leavesFast (c c' : Channel) : Prop := c' = c ∨ (c.sends < c'.sends ∧ lastRate c'.trace = some .fast)

theorem leavesFast_trans {a b c : Channel} (hab : leavesFast a b) (hbc : leavesFast b c) : leavesFast a c := by
  obtain rfl | ⟨hbc, hfast⟩ := hbc
  · exact hab
  · obtain rfl | ⟨hab, -⟩ := hab
    · exact .inr ⟨hbc, hfast⟩
    · exact .inr ⟨hab.trans hbc, hfast⟩

/-- On every channel, nothing is done or FAST is left. -/
abbrev Op.LeavesFast {α : Type} (o : Op α) : Prop := o.Within leavesFast

namespace Op.LeavesFast

variable {α β : Type}

theorem pure (v : α) : (Op.pure v).LeavesFast := fun _ => .inl rfl

theorem raise (k : ErrorKind) : (Op.raise k : Op α).LeavesFast := fun _ => .inl rfl

theorem bind {o : Op α} {f : α → Op β} (first : o.LeavesFast) (second : ∀ v, (f v).LeavesFast) :
    (o.bind f).LeavesFast :=
  Op.bind_related leavesFast leavesFast_trans o f first second

theorem loop {body : Nat → α → Op α} (turn : ∀ i v, (body i v).LeavesFast) (i n : Nat) (v : α) :
    (Op.loop body i n v).LeavesFast :=
  Op.loop_related leavesFast (fun _ => .inl rfl) leavesFast_trans body turn i n v

theorem writeBit (p : Params) (b : Bool) : (writeBit p b).LeavesFast := fun c => by
  refine .inr ⟨writeBit_makesSend p b c, ?_⟩
  rw [writeBit_apply, Channel.advance_trace, lastRate_append, lastRate_of_legalSlot (legalSlot_writeSlot p b _)]
  rfl

theorem readBit (p : Params) : (readBit p).LeavesFast := fun c => by
  refine .inr ⟨readBit_makesSend p c, ?_⟩
  rw [readBit_chan]
  split <;> rw [Channel.advance_trace, lastRate_append]
  · rfl
  · rfl

theorem writeByte (p : Params) (v : Byte) : (writeByte p v).LeavesFast := loop (fun _ _ => writeBit p _) 0 8 ()

theorem readByte (p : Params) : (readByte p).LeavesFast :=
  loop (fun _ _ => bind (readBit p) fun _ => pure _) 0 8 0

theorem readPair (p : Params) : (readPair p).LeavesFast := bind (readBit p) fun _ => bind (readBit p) fun _ => pure _

theorem replayPosition (p : Params) (i : Nat) (w : Walk) : (replayPosition p i w).LeavesFast :=
  bind (readPair p) fun _ => bind (writeBit p _) fun _ => pure _

theorem forcedBranch (p : Params) (q : Nat) (w : Walk) : (forcedBranch p q w).LeavesFast := by
  refine bind (readPair p) fun r => ?_
  split
  · exact raise _
  · exact bind (writeBit p _) fun _ => pure _

theorem resolvePosition (p : Params) (i : Nat) (w : Walk) : (resolvePosition p i w).LeavesFast := by
  refine bind (readPair p) fun r => ?_
  split
  · exact raise _
  all_goals exact bind (writeBit p _) fun _ => pure _

theorem searchPosition (s : State) (i : Nat) (w : Walk) : (searchPosition s i w).LeavesFast := by
  unfold Machine.searchPosition
  split_ifs
  · exact replayPosition _ _ _
  · exact forcedBranch _ _ _
  · exact resolvePosition _ _ _
  · exact resolvePosition _ _ _

theorem searchAfterReset (s : State) (f present : Bool) : (searchAfterReset s f present).LeavesFast := by
  cases present
  · exact pure _
  · refine bind (writeByte _ _) fun _ => bind ?_ fun w c => .inl (checkWalk_chan w c)
    rw [walkPositions_eq_loop]
    exact loop (searchPosition s) 0 64 _

end Op.LeavesFast

theorem busReset_lastRate (p : Params) (c : Channel) : lastRate (busReset p c).chan.trace = some .slow := by
  rw [busReset_chan]
  split <;> rw [Channel.advance_trace, lastRate_append]
  · rfl
  · rfl

/-- The rate tells whether anything was sent after the reset (rule R236). -/
theorem lastRate_of_busReset_bind {α : Type} {p : Params} {f : Bool → Op α} (hf : ∀ present, (f present).LeavesFast)
    (c : Channel) :
    lastRate ((busReset p).bind f c).chan.trace =
      some (if ((busReset p).bind f c).chan.sends = c.sends + 1 then .slow else .fast) := by
  have hrate := busReset_lastRate p c
  have hsends := busReset_sends p c
  obtain ⟨v, c', ho, e⟩ | ⟨k, c', ho, e⟩ := Op.bind_cases (busReset p) f c <;> rw [ho] at hrate hsends <;> rw [e]
  · obtain hsame | ⟨hmore, hfast⟩ := hf v c'
    · rw [hsame, hrate, if_pos hsends]
    · simp only at hsends
      rw [hfast, if_neg (by omega)]
  · rw [hrate, if_pos hsends]

/-- The same, for the commands that address a device (rules R130 to R134). -/
theorem lastRate_of_resetOrFail_bind {α : Type} {p : Params} {f : Unit → Op α} (hf : (f ()).LeavesFast) (c : Channel) :
    lastRate ((resetOrFail p).bind f c).chan.trace =
      some (if ((resetOrFail p).bind f c).chan.sends = c.sends + 1 then .slow else .fast) := by
  rw [resetOrFail, Op.bind_assoc]
  refine lastRate_of_busReset_bind (fun present => ?_) c
  cases present
  · exact .bind (.raise _) fun _ => hf
  · exact hf

/-- The commands that only write or read bits leave FAST (rules R101 to R104). -/
theorem lastRate_fast {i : Instr} {s : State}
    (hi : (∃ b, i = .writeBit b) ∨ i = .readBit ∨ (∃ v, i = .writeByte v) ∨ i = .readByte) :
    lastRate (commandOp s i s.chan).chan.trace = some .fast := by
  have hop : (commandOp s i).LeavesFast ∧ (commandOp s i).MakesSend := by
    obtain ⟨b, rfl⟩ | rfl | ⟨v, rfl⟩ | rfl := hi <;> refine ⟨?_, commandOp_makesSend (fun _ => ⟨nofun, nofun⟩) nofun⟩
    · exact .bind (.writeBit _ _) fun _ => .pure _
    · exact .bind (.readBit _) fun _ => .pure _
    · exact .bind (.writeByte _ _) fun _ => .pure _
    · exact .bind (.readByte _) fun _ => .pure _
  obtain ⟨hfast, hsend⟩ := hop
  have hlt : s.chan.sends < (commandOp s i s.chan).chan.sends := hsend s.chan
  obtain hsame | ⟨-, hrate⟩ := hfast s.chan
  · rw [hsame] at hlt
    exact absurd hlt (Nat.lt_irrefl _)
  · exact hrate

/-- The commands that begin with a reset leave SLOW where they ended in it (rules R130 to R132, R142). -/
theorem lastRate_after_reset {i : Instr} {s : State}
    (hi : i = .readAddress ∨ i = .matchAddress ∨ i = .skipAddress ∨ ∃ f, i = .search f ∧ ¬(s.ssv = true ∧ s.disc = 0)) :
    lastRate (commandOp s i s.chan).chan.trace =
      some (if (commandOp s i s.chan).chan.sends = s.chan.sends + 1 then .slow else .fast) := by
  obtain rfl | rfl | rfl | ⟨f, rfl, hnot⟩ := hi <;> rw [commandOp, Op.bind_pure_chan]
  · exact lastRate_of_resetOrFail_bind (.bind (.writeByte _ _) fun _ =>
      .loop (fun _ _ => .bind (.readByte _) fun _ => .pure _) 0 8 0) _
  · exact lastRate_of_resetOrFail_bind (.bind (.writeByte _ _) fun _ => .loop (fun _ _ => .writeByte _ _) 0 8 ()) _
  · exact lastRate_of_resetOrFail_bind (.writeByte _ _) _
  · rw [deviceSearch_of_not_exhausted f hnot]
    exact lastRate_of_busReset_bind (.searchAfterReset s f) _

/-- Settles O43: the last slot selects the rate; a reset selects SLOW, and the bit slots after it FAST. -/
theorem rateLeftOnTheChannel : Obligations.RateLeftOnTheChannel := by
  intro i s t h
  have hchan := exec_next_chan h
  refine ⟨?_, fun hi => ?_, fun hi => ?_, fun hi => ?_, fun hi => ?_, fun ⟨f, hi⟩ hssv hdisc => ?_⟩
  · obtain ⟨slots, htrace, hlegal⟩ := traceIsMadeOfSlots i s t h
    refine ⟨slots, htrace, hlegal, fun hnil => ?_, fun x hlast => ?_⟩
    · rw [htrace, hnil, List.flatten_nil, List.append_nil]
    · rw [htrace, lastRate_of_getLast? hlegal hlast]
  · subst hi
    rw [hchan, commandOp, Op.bind_pure_chan, busReset_lastRate]
  · rw [hchan, lastRate_fast hi]
  · obtain ⟨n, rfl⟩ | ⟨n, rfl⟩ := hi <;> rw [hchan] <;> rfl
  · have hsend : (commandOp s i).MakesSend := by
      obtain rfl | rfl | rfl | ⟨f, rfl, hnot⟩ := hi <;> refine commandOp_makesSend (fun _ => ⟨nofun, nofun⟩) ?_
      case inr.inr.inr => exact fun _ _ => hnot
      all_goals exact nofun
    rw [hchan]
    exact ⟨hsend s.chan, lastRate_after_reset hi⟩
  · subst hi
    rw [hchan, commandOp, Op.bind_pure_chan, deviceSearch_of_exhausted f hssv hdisc]
    rfl

/-! The primitive calls behind a slot (rules R51, R54, R105). -/

/-- A slot is a rate selection, the two flushes, one send, and at most receives after it. -/
theorem primitiveCalls_of_legalSlot {p : Params} {x : List Event} (h : legalSlot p x = true) (o : FlushOrder) :
    ∃ r b rest, x.flatMap (primitiveCalls o) = (.selectRate r :: primitiveCalls o .flush) ++ .sendByte b :: rest ∧
      (∀ call ∈ rest, call = .receiveByte) ∧ (sendAnswers x).length = 1 := by
  unfold legalSlot at h
  split at h
  case h_5 => cases h
  all_goals cases o
  all_goals exact ⟨_, _, _, rfl, by simp [primitiveCalls], rfl⟩

theorem not_mem_of_receives {rest : List PrimitiveCall} (hrest : ∀ call ∈ rest, call = .receiveByte)
    {call : PrimitiveCall} (hcall : call ≠ .receiveByte) : call ∉ rest := fun hmem => hcall (hrest call hmem)

/-- In slots each send comes right after a rate selection and the two flushes. -/
theorem send_after_flushes {p : Params} (o : FlushOrder) {slots : List (List Event)}
    (hlegal : ∀ x ∈ slots, legalSlot p x = true) {before after : List PrimitiveCall} {b : Byte}
    (h : slots.flatten.flatMap (primitiveCalls o) = before ++ .sendByte b :: after) :
    ∃ earlier r, before = earlier ++ .selectRate r :: primitiveCalls o .flush := by
  induction slots generalizing before with
  | nil => simp at h
  | cons x slots ih =>
    have ih := @ih fun y hy => hlegal y (List.mem_cons_of_mem x hy)
    obtain ⟨r, b', rest, hx, hrest, -⟩ := primitiveCalls_of_legalSlot (hlegal x List.mem_cons_self) o
    rw [List.flatten_cons, List.flatMap_append, hx] at h
    obtain ⟨tail, rfl, htail⟩ | ⟨tail, hhead, htail⟩ := List.append_eq_append_iff.mp h
    · obtain ⟨earlier, r', rfl⟩ := ih htail
      exact ⟨_, r', (List.append_assoc _ _ _).symm⟩
    · cases tail with
      | nil =>
        obtain ⟨earlier, r', hnil⟩ := ih (before := []) htail.symm
        simp at hnil
      | cons call tail =>
        obtain ⟨rfl, -⟩ := List.cons.inj htail
        have hnotHead : PrimitiveCall.sendByte b ∉ PrimitiveCall.selectRate r :: primitiveCalls o .flush := by
          cases o <;> simp [primitiveCalls]
        obtain ⟨rfl, -⟩ :=
          (List.append_cons_inj_of_notMem hnotHead (not_mem_of_receives hrest nofun)).mp hhead
        exact ⟨[], r, rfl⟩

/-- Slots flush each direction once for each of their sends. -/
theorem count_flushes {p : Params} (o : FlushOrder) {slots : List (List Event)}
    (hlegal : ∀ x ∈ slots, legalSlot p x = true) {flush : PrimitiveCall}
    (hflush : flush = .flushInput ∨ flush = .flushOutput) :
    (slots.flatten.flatMap (primitiveCalls o)).count flush = (sendAnswers slots.flatten).length := by
  induction slots with
  | nil => rfl
  | cons x slots ih =>
    have ih := ih fun y hy => hlegal y (List.mem_cons_of_mem x hy)
    obtain ⟨r, b, rest, hx, hrest, hsends⟩ := primitiveCalls_of_legalSlot (hlegal x List.mem_cons_self) o
    have hhead : (PrimitiveCall.selectRate r :: primitiveCalls o .flush).count flush = 1 := by
      obtain rfl | rfl := hflush <;> cases o <;> simp [primitiveCalls]
    have hrest : (PrimitiveCall.sendByte b :: rest).count flush = 0 := by
      refine List.count_eq_zero.mpr fun hmem => ?_
      obtain rfl | hmem := List.mem_cons.mp hmem
      · simp at hflush
      · obtain rfl := hrest _ hmem
        simp at hflush
    rw [List.flatten_cons, List.flatMap_append, List.count_append, ih, sendAnswers_append, List.length_append, hsends,
      hx, List.count_append, hhead, hrest]

/-- Settles O44: the events are slots, each with one send right behind its flushes, and the counter of sends grows by the
sends among them. -/
theorem everySendHasBothFlushes : Obligations.EverySendHasBothFlushes := by
  intro o i s t events h htrace
  obtain ⟨slots, hslots, hlegal⟩ := traceIsMadeOfSlots i s t h
  obtain rfl := List.append_cancel_left (htrace.symm.trans hslots)
  obtain ⟨es, -, hchan⟩ := exec_chan_eq_after h
  obtain rfl : es = slots.flatten := List.append_cancel_left (by rw [← htrace, hchan, Channel.after_trace])
  have hsends : t.chan.sends - s.chan.sends = (sendAnswers slots.flatten).length := by
    rw [hchan, Channel.after_sends, Nat.add_sub_cancel_left]
  rw [hsends]
  exact ⟨fun before b after hcalls => send_after_flushes o hlegal hcalls, count_flushes o hlegal (.inl rfl),
    count_flushes o hlegal (.inr rfl)⟩

end Sys2Proof.Machine

/-! ## The algebra of the checksum (rules R120 to R123) -/

namespace Sys2Proof.Machine

/-! The shift is linear and loses nothing. -/

theorem crcShift_xor (x y : Byte) : crcShift (x ^^^ y) = crcShift x ^^^ crcShift y := by
  unfold crcShift
  rw [BitVec.getLsbD_xor, BitVec.ushiftRight_xor_distrib]
  cases x.getLsbD 0 <;> cases y.getLsbD 0
  · rfl
  · exact BitVec.xor_assoc _ _ _
  · simp only [Bool.xor_false, if_true]
    rw [BitVec.xor_assoc, BitVec.xor_comm (y >>> 1), ← BitVec.xor_assoc]
    rfl
  · have hcancel (a b c : Byte) : a ^^^ b = (a ^^^ c) ^^^ (b ^^^ c) := by
      rw [BitVec.xor_comm b c, ← BitVec.xor_assoc, BitVec.xor_assoc a c c, BitVec.xor_self, BitVec.xor_zero]
    exact hcancel _ _ _

theorem crcShifts_xor (n : Nat) (x y : Byte) : crcShifts n (x ^^^ y) = crcShifts n x ^^^ crcShifts n y := by
  induction n generalizing x y with
  | zero => rfl
  | succ n ih => rw [crcShifts, crcShift_xor, ih]; rfl

theorem crcShift_eq_zero_iff : ∀ x : Byte, crcShift x = 0 ↔ x = 0 := by decide +kernel

theorem crcShifts_eq_zero_iff (n : Nat) (x : Byte) : crcShifts n x = 0 ↔ x = 0 := by
  induction n generalizing x with
  | zero => rfl
  | succ n ih => rw [crcShifts, ih, crcShift_eq_zero_iff]

theorem crcShifts_injective (n : Nat) {x y : Byte} (h : crcShifts n x = crcShifts n y) : x = y := by
  have hzero : crcShifts n (x ^^^ y) = 0 := by
    rw [crcShifts_xor, h]
    exact BitVec.xor_self
  exact BitVec.xor_eq_zero_iff.mp ((crcShifts_eq_zero_iff n _).mp hzero)

/-! Bytes entering the register. -/

theorem crcByte_xor (x y d e : Byte) : crcByte (x ^^^ y) (d ^^^ e) = crcByte x d ^^^ crcByte y e := by
  rw [crcByte, crcByte, crcByte, ← crcShifts_xor]
  congr 1
  ac_rfl

theorem crcByte_eq_zero_iff (crc d : Byte) : crcByte crc d = 0 ↔ crc = d := by
  rw [crcByte, crcShifts_eq_zero_iff]
  exact BitVec.xor_eq_zero_iff

theorem crcByte_left_injective {x y d : Byte} (h : crcByte x d = crcByte y d) : x = y :=
  BitVec.xor_left_inj d |>.mp (crcShifts_injective 8 h)

theorem crcByte_right_injective {x d e : Byte} (h : crcByte x d = crcByte x e) : d = e :=
  BitVec.xor_right_inj x |>.mp (crcShifts_injective 8 h)

theorem foldl_crcByte_injective {block : List Byte} {x y : Byte} (h : block.foldl crcByte x = block.foldl crcByte y) :
    x = y := by
  induction block generalizing x y with
  | nil => exact h
  | cons d block ih => exact crcByte_left_injective (ih h)

theorem foldl_crcByte_xor {a b : List Byte} (hlength : a.length = b.length) (x y : Byte) :
    (List.zipWith (· ^^^ ·) a b).foldl crcByte (x ^^^ y) = a.foldl crcByte x ^^^ b.foldl crcByte y := by
  induction a generalizing b x y with
  | nil =>
    obtain rfl := List.length_eq_zero_iff.mp hlength.symm
    rfl
  | cons d a ih =>
    obtain ⟨e, b, rfl⟩ := List.exists_cons_of_length_eq_add_one hlength.symm
    rw [List.zipWith_cons_cons, List.foldl_cons, crcByte_xor, ih (Nat.succ.inj hlength)]
    rfl

/-- Settles O18: byte after byte the registers of the two sequences are added, from the seeds 0 and 0. -/
theorem checksumIsLinear : Obligations.ChecksumIsLinear := fun _ _ hlength =>
  foldl_crcByte_xor hlength crcSeed crcSeed

/-- The table of rule R123 is the eight shifts of a byte. -/
theorem crcShifts_eight_eq_crcTable : ∀ d : Byte, crcShifts 8 d = crcTable d := by decide +kernel

/-- Settles O13: each byte enters through the table. -/
theorem checksumHasTheTableForm : Obligations.ChecksumHasTheTableForm := by
  intro block
  have hbyte : crcByte = fun crc d => crcTable (crc ^^^ d) :=
    funext fun crc => funext fun d => crcShifts_eight_eq_crcTable (crc ^^^ d)
  rw [crc8, hbyte]
  rfl

@[simp] theorem crc8_append_singleton (block : List Byte) (last : Byte) :
    crc8 (block ++ [last]) = crcByte (crc8 block) last := by
  rw [crc8, List.foldl_append]
  rfl

/-- Settles O15: the last byte clears the register exactly when it is what the register holds. -/
theorem verifyMeansChecksumZero : Obligations.VerifyMeansChecksumZero := by
  intro block hne
  obtain ⟨init, last, rfl⟩ := (List.eq_nil_or_concat' block).resolve_left hne
  rw [verify_append_singleton, crc8_append_singleton, beq_iff_eq]
  exact (crcByte_eq_zero_iff _ _).symm

/-- Settles O16. The checksum is the last byte, and is compared with itself. -/
theorem appendedChecksumVerifies : Obligations.AppendedChecksumVerifies := fun block => by
  rw [verify_append_singleton, beq_self_eq_true]

/-- Settles O17: blocks that differ in one byte leave different registers, so not both are 0. -/
theorem singleBitFlipFails : Obligations.SingleBitFlipFails := by
  intro before after d i hi hpass
  have hzero := (verifyMeansChecksumZero _ (by simp)).mp hpass
  by_contra hflip
  have hzero' := (verifyMeansChecksumZero _ (by simp)).mp (Bool.eq_true_of_not_eq_false hflip)
  have hsame : (before ++ d :: after).foldl crcByte crcSeed =
      (before ++ setBit d i (!d.getLsbD i) :: after).foldl crcByte crcSeed := hzero.trans hzero'.symm
  rw [List.foldl_append, List.foldl_append] at hsame
  have hbyte : d = setBit d i (!d.getLsbD i) := crcByte_right_injective (foldl_crcByte_injective hsame)
  have hbit : (setBit d i (!d.getLsbD i)).getLsbD i = !d.getLsbD i := by rw [getLsbD_setBit, if_pos ⟨rfl, hi⟩]
  rw [← hbyte] at hbit
  simp at hbit

end Sys2Proof.Machine

/-! ## The register window (rules R21, R28, R63) -/

namespace Sys2Proof.Machine

theorem step_window {s : State} {a : WindowAccess} {rest : List Input} (h : s.pending = .window a :: rest) :
    step s = .next (accessWindow a (s.setPending rest)) := by
  rw [step_input h, perform]

/-! Byte writes, by offset. -/

theorem writeWindowByte_ignored {offset : BitVec 6}
    (h : offset.toNat ∈ [0x00, 0x01, 0x02, 0x03, 0x06, 0x07] ∨ 0x21 ≤ offset.toNat) (s : State) (v : Byte) :
    writeWindowByte s offset v = s := by
  simp only [List.mem_cons, List.not_mem_nil, or_false] at h
  unfold writeWindowByte
  iterate 5 rw [if_neg (by omega)]

theorem writeWindowByte_ldi {offset : BitVec 6} (h : offset.toNat = 0x04) (s : State) (v : Byte) :
    writeWindowByte s offset v = s.setLdi (v.extractLsb' 0 6) := by
  rw [writeWindowByte, if_pos h]

theorem writeWindowByte_ssv {offset : BitVec 6} (h : offset.toNat = 0x05) (s : State) (v : Byte) :
    writeWindowByte s offset v = s.setSsv (v.getLsbD 0) := by
  rw [writeWindowByte, if_neg (by omega), if_pos h]

theorem writeWindowByte_addr {offset : BitVec 6} {k : Nat} (hk : k < 8) (h : offset.toNat = 0x08 + k) (s : State)
    (v : Byte) : writeWindowByte s offset v = s.setAddr (setByteLane s.addr k v) := by
  rw [writeWindowByte, if_neg (by omega), if_neg (by omega), if_pos (by omega), h, Nat.add_sub_cancel_left]

theorem writeWindowByte_disc {offset : BitVec 6} {k : Nat} (hk : k < 8) (h : offset.toNat = 0x10 + k) (s : State)
    (v : Byte) : writeWindowByte s offset v = s.setDisc (setByteLane s.disc k v) := by
  rw [writeWindowByte, if_neg (by omega), if_neg (by omega), if_neg (by omega), if_pos (by omega), h,
    Nat.add_sub_cancel_left]

theorem writeWindowByte_buf {offset : BitVec 6} {j : Nat} (hj : j < 9) (h : offset.toNat = 0x18 + j) (s : State)
    (v : Byte) : writeWindowByte s offset v = s.setBuf (s.buf.set j v hj) := by
  rw [writeWindowByte, if_neg (by omega), if_neg (by omega), if_neg (by omega), if_neg (by omega), if_pos (by omega), h,
    Nat.add_sub_cancel_left, writeBufByte]
  congr 1
  ext i hi
  rw [Vector.getElem_setIfInBounds, Vector.getElem_set]

/-- Settles O53: such an offset is none of those that `writeWindowByte` stores at. -/
theorem windowWritesIgnored : Obligations.WindowWritesIgnored := by
  intro s offset v rest h hoffset
  rw [step_window h, accessWindow, writeWindowByte_ignored hoffset]
  rfl

/-- A byte written to a lane of a wide register, bit by bit. -/
theorem getLsbD_setByteLane_div (a : Word64) (k : Nat) (v : Byte) {i : Nat} (hi : i < 64) :
    (setByteLane a k v).getLsbD i = if i / 8 = k then v.getLsbD (i % 8) else a.getLsbD i := by
  rw [getLsbD_setByteLane a k v i hi]
  by_cases h : i / 8 = k
  · rw [if_pos (by omega), if_pos h, show i - 8 * k = i % 8 by omega]
  · rw [if_neg (by omega), if_neg h]

/-- Settles O54: each writable offset by its own equation. -/
theorem windowWritesStored : Obligations.WindowWritesStored := by
  intro s offset v rest h
  rw [step_window h, accessWindow]
  refine ⟨fun hoffset => ?_, fun hoffset => ?_, fun k hk hoffset => ?_, fun k hk hoffset => ?_, fun j hoffset => ?_⟩
  · rw [writeWindowByte_ldi hoffset]
    rfl
  · rw [writeWindowByte_ssv hoffset]
    rfl
  · rw [writeWindowByte_addr hk hoffset]
    exact ⟨_, rfl, fun i hi => getLsbD_setByteLane_div s.addr k v hi⟩
  · rw [writeWindowByte_disc hk hoffset]
    exact ⟨_, rfl, fun i hi => getLsbD_setByteLane_div s.disc k v hi⟩
  · rw [writeWindowByte_buf j.isLt hoffset]
    rfl

/-- Settles O55: the whole accesses, each one branch of `accessWindow`. -/
theorem windowWholeAccesses : Obligations.WindowWholeAccesses := by
  intro s rest v
  refine ⟨fun h => ?_, fun h => ?_, fun h => ?_, fun h => ?_, fun h => ?_⟩
  all_goals
    rw [step_window h]
    rfl

/-! Byte reads, by offset. -/

/-- The byte at an offset is the one the register map gives (rule R21). -/
theorem windowByte_eq {s : State} {offset : BitVec 6} {v : Byte}
    (hzero : offset.toNat ∈ [0x00, 0x01, 0x06, 0x07] ∨ 0x21 ≤ offset.toNat → v = 0x00)
    (hstatus : offset.toNat = 0x02 → v = s.status) (hdata : offset.toNat = 0x03 → v = s.data)
    (hldi : offset.toNat = 0x04 → v.toNat = s.ldi.toNat) (hssv : offset.toNat = 0x05 → v = if s.ssv then 0x01 else 0x00)
    (haddr : ∀ k < 8, offset.toNat = 0x08 + k → v = s.addr.extractLsb' (8 * k) 8)
    (hdisc : ∀ k < 8, offset.toNat = 0x10 + k → v = s.disc.extractLsb' (8 * k) 8)
    (hbuf : ∀ j : Fin 9, offset.toNat = 0x18 + j.val → v = s.buf[j]) : windowByte s offset = v := by
  unfold windowByte
  split_ifs with h2 h3 h4 h5 h8 h10 h18
  · exact (hstatus h2).symm
  · exact (hdata h3).symm
  · refine BitVec.eq_of_toNat_eq ?_
    rw [hldi h4, BitVec.toNat_setWidth_of_le (by decide)]
  · rw [hssv h5]
    cases s.ssv <;> rfl
  · exact (haddr _ (by omega) (by omega)).symm
  · exact (hdisc _ (by omega) (by omega)).symm
  · have hj : offset.toNat - 0x18 < 9 := by omega
    rw [bufByte, dif_pos hj]
    exact (hbuf ⟨_, hj⟩ (by simp only; omega)).symm
  · refine (hzero ?_).symm
    simp only [List.mem_cons, List.not_mem_nil, or_false]
    omega

/-- Settles O52: the step records the byte of the register map. -/
theorem windowReads : Obligations.WindowReads := by
  intro s offset rest v h hzero hstatus hdata hldi hssv haddr hdisc hbuf
  rw [step_window h, accessWindow, windowByte_eq (s := s.setPending rest) hzero hstatus hdata hldi hssv haddr hdisc hbuf]
  rfl

/-! A wide register written byte by byte (rule R63). -/

/-- Writes of the lanes of `v` store them one after another; `store` is the register. -/
theorem foldl_lanes {write : State → Nat → State} {store : State → Word64 → State} {load : State → Word64} {v : Word64}
    (hwrite : ∀ s, ∀ k < 8, write s k = store s (setByteLane (load s) k (byteLane v k)))
    (hload : ∀ s a, load (store s a) = a) (hstore : ∀ s a b, store (store s a) b = store s b) (s : State)
    (lanes : List Nat) (hlanes : ∀ k ∈ lanes, k < 8) (a : Word64) :
    lanes.foldl write (store s a) = store s (lanes.foldl (fun b k => setByteLane b k (byteLane v k)) a) := by
  induction lanes generalizing a with
  | nil => rfl
  | cons k lanes ih =>
    rw [List.foldl_cons, List.foldl_cons, hwrite _ k (hlanes k List.mem_cons_self), hload, hstore]
    exact ih (fun j hj => hlanes j (List.mem_cons_of_mem k hj)) _

/-- A bit is that of `v` once its lane was written. -/
theorem getLsbD_foldl_lanes (v : Word64) (lanes : List Nat) (a : Word64) {i : Nat} (hi : i < 64) :
    (lanes.foldl (fun b k => setByteLane b k (byteLane v k)) a).getLsbD i =
      if i / 8 ∈ lanes then v.getLsbD i else a.getLsbD i := by
  induction lanes generalizing a with
  | nil => rfl
  | cons k lanes ih =>
    rw [List.foldl_cons, ih, getLsbD_setByteLane_div a k _ hi, getLsbD_byteLane]
    by_cases hk : i / 8 = k
    · subst hk
      simp [Nat.div_add_mod, Nat.mod_lt]
    · simp [hk]

/-- All eight lanes are the whole word. -/
theorem foldl_lanes_all {v : Word64} {lanes : List Nat} (h : ∀ k < 8, k ∈ lanes) (a : Word64) :
    lanes.foldl (fun b k => setByteLane b k (byteLane v k)) a = v := by
  refine BitVec.eq_of_getLsbD_eq fun i hi => ?_
  rw [getLsbD_foldl_lanes v lanes a hi, if_pos (h _ (by omega))]

/-- Settles O56: each of the eight writes stores its lane, so together they store the word, whatever was there. -/
theorem byteWritesMakeTheWholeWrite : Obligations.ByteWritesMakeTheWholeWrite := by
  intro s v lanes hperm
  have hmem (k : Nat) : k ∈ lanes ↔ k < 8 := hperm.mem_iff.trans List.mem_range
  have hoffset {base k : Nat} (hbase : base + 8 ≤ 64) (hk : k < 8) : (BitVec.ofNat 6 (base + k)).toNat = base + k := by
    rw [BitVec.toNat_ofNat, Nat.mod_eq_of_lt (by omega)]
  refine ⟨?_, ?_⟩
  · have hfold := foldl_lanes (v := v) (load := State.addr) (store := State.setAddr)
      (fun t k hk => writeWindowByte_addr hk (hoffset (by decide) hk) t _) (fun _ _ => rfl) (fun _ _ _ => rfl) s lanes
      (fun k hk => (hmem k).mp hk) s.addr
    rw [foldl_lanes_all fun k hk => (hmem k).mpr hk] at hfold
    exact hfold
  · have hfold := foldl_lanes (v := v) (load := State.disc) (store := State.setDisc)
      (fun t k hk => writeWindowByte_disc hk (hoffset (by decide) hk) t _) (fun _ _ => rfl) (fun _ _ _ => rfl) s lanes
      (fun k hk => (hmem k).mp hk) s.disc
    rw [foldl_lanes_all fun k hk => (hmem k).mpr hk] at hfold
    exact hfold

end Sys2Proof.Machine

/-! ## Enumerating a bus of devices (rules R144, R154, R155, R157) -/

namespace Sys2Proof.Machine

/-! The order of the enumeration. -/

/-- `a` takes the 1-branch at position `i` where `b`, on the same path so far, takes the 0-branch. -/
structure BranchesAt (b a : Word64) (i : Nat) : Prop where
  below : ∀ j < i, a.getLsbD j = b.getLsbD j
  zero : b.getLsbD i = false
  one : a.getLsbD i = true

/-- The first `n` bits as a number, bit 0 the most significant. -/
def revPrefix (a : Word64) (n : Nat) : Nat := (List.range n).foldl (fun v i => 2 * v + (a.getLsbD i).toNat) 0

theorem rev64_eq (a : Word64) : rev64 a = revPrefix a 64 := rfl

theorem revPrefix_succ (a : Word64) (n : Nat) : revPrefix a (n + 1) = 2 * revPrefix a n + (a.getLsbD n).toNat := by
  simp [revPrefix, List.range_succ]

theorem revPrefix_congr {a b : Word64} {n : Nat} (h : ∀ j < n, a.getLsbD j = b.getLsbD j) :
    revPrefix a n = revPrefix b n := by
  induction n with
  | zero => rfl
  | succ n ih => rw [revPrefix_succ, revPrefix_succ, ih fun j hj => h j (by omega), h n n.lt_succ_self]

/-- The first position where two addresses part decides their order, whatever follows. -/
theorem BranchesAt.revPrefix_lt {a b : Word64} {i n : Nat} (h : BranchesAt b a i) (hn : i + 1 ≤ n) :
    revPrefix b n < revPrefix a n := by
  induction n, hn using Nat.le_induction with
  | base =>
    rw [revPrefix_succ, revPrefix_succ, revPrefix_congr h.below, h.zero, h.one]
    exact Nat.lt_succ_self _
  | succ n _ ih =>
    have := Bool.toNat_le (b.getLsbD n)
    rw [revPrefix_succ, revPrefix_succ]
    omega

theorem BranchesAt.lt {a b : Word64} {i : Nat} (h : BranchesAt b a i) : i < 64 := BitVec.lt_of_getLsbD h.one

theorem BranchesAt.rev64_lt {a b : Word64} {i : Nat} (h : BranchesAt b a i) : rev64 b < rev64 a := by
  rw [rev64_eq, rev64_eq]
  exact h.revPrefix_lt h.lt

/-- A smaller key means parting to the 0-branch somewhere. -/
theorem exists_branchesAt {a b : Word64} (h : rev64 b < rev64 a) : ∃ i, BranchesAt b a i := by
  have hdiff : ∃ i, a.getLsbD i ≠ b.getLsbD i := by
    by_contra hsame
    have hab : a = b := BitVec.eq_of_getLsbD_eq fun i _ => not_not.mp fun hne => hsame ⟨i, hne⟩
    rw [hab] at h
    exact Nat.lt_irrefl _ h
  have hbelow : ∀ j < Nat.find hdiff, a.getLsbD j = b.getLsbD j := fun j hj => not_not.mp (Nat.find_min hdiff hj)
  have hat := Nat.find_spec hdiff
  refine ⟨Nat.find hdiff, ?_⟩
  cases hb : b.getLsbD (Nat.find hdiff) <;> cases ha : a.getLsbD (Nat.find hdiff)
  case false.true => exact ⟨hbelow, hb, ha⟩
  case true.false =>
    have hback : BranchesAt a b (Nat.find hdiff) := ⟨fun j hj => (hbelow j hj).symm, ha, hb⟩
    exact absurd hback.rev64_lt (Nat.lt_asymm h)
  all_goals exact absurd (ha.trans hb.symm) hat

/-! The bus on the path to a device. -/

theorem agreesBelow_iff {a d : Word64} {i : Nat} : agreesBelow a i d = true ↔ ∀ j < i, d.getLsbD j = a.getLsbD j := by
  simp [agreesBelow]

theorem unexploredAt_iff {ds : List Word64} {a : Word64} {i : Nat} :
    unexploredAt ds a i = true ↔ ∃ d ∈ ds, BranchesAt a d i := by
  simp only [unexploredAt, Bool.and_eq_true, Bool.not_eq_true', List.any_eq_true, agreesBelow_iff]
  exact ⟨fun ⟨hzero, d, hd, hbelow, hone⟩ => ⟨d, hd, hbelow, hzero, hone⟩,
    fun ⟨d, hd, hbelow, hzero, hone⟩ => ⟨hzero, d, hd, hbelow, hone⟩⟩

theorem unexploredAt_eq_false_iff {ds : List Word64} {a : Word64} {i : Nat} :
    unexploredAt ds a i = false ↔ ∀ d ∈ ds, ¬BranchesAt a d i := by
  rw [← Bool.not_eq_true, unexploredAt_iff]
  simp

/-- Devices on the same path up to a position leave the same branch unexplored there. -/
theorem unexploredAt_congr {ds : List Word64} {a b : Word64} {i : Nat} (h : ∀ j ≤ i, a.getLsbD j = b.getLsbD j) :
    unexploredAt ds a i = unexploredAt ds b i := by
  rw [Bool.eq_iff_iff, unexploredAt_iff, unexploredAt_iff]
  refine exists_congr fun d => and_congr_right fun _ => ⟨fun hd => ?_, fun hd => ?_⟩
  · exact ⟨fun j hj => (hd.below j hj).trans (h j hj.le), (h i le_rfl).symm.trans hd.zero, hd.one⟩
  · exact ⟨fun j hj => (hd.below j hj).trans (h j hj.le).symm, (h i le_rfl).trans hd.zero, hd.one⟩

theorem lineBits_fst_iff {ds : List Word64} {a : Word64} {i : Nat} :
    (lineBits ds a i).1 = true ↔ ∀ d ∈ ds, (∀ j < i, d.getLsbD j = a.getLsbD j) → d.getLsbD i = true := by
  simp only [lineBits, List.all_eq_true, List.mem_filter, agreesBelow_iff, and_imp]

theorem lineBits_snd_iff {ds : List Word64} {a : Word64} {i : Nat} :
    (lineBits ds a i).2 = true ↔ ∀ d ∈ ds, (∀ j < i, d.getLsbD j = a.getLsbD j) → d.getLsbD i = false := by
  simp only [lineBits, List.all_eq_true, List.mem_filter, agreesBelow_iff, and_imp, Bool.not_eq_true']

/-- Where no device parts from `a` to the 0-branch, the first response bit is the bit of `a` (rule R144). -/
theorem lineBits_fst {ds : List Word64} {a : Word64} {i : Nat} (ha : a ∈ ds) (hleast : ∀ d ∈ ds, ¬BranchesAt d a i) :
    (lineBits ds a i).1 = a.getLsbD i := by
  rw [Bool.eq_iff_iff, lineBits_fst_iff]
  refine ⟨fun h => h a ha fun _ _ => rfl, fun hone d hd hbelow => ?_⟩
  by_contra hzero
  exact hleast d hd ⟨fun j hj => (hbelow j hj).symm, Bool.eq_false_of_not_eq_true hzero, hone⟩

/-- The second response bit is 0 where `a` has a 1, and where a device parts from it to the 1-branch. -/
theorem lineBits_snd {ds : List Word64} {a : Word64} {i : Nat} (ha : a ∈ ds) :
    (lineBits ds a i).2 = (!a.getLsbD i && !unexploredAt ds a i) := by
  rw [Bool.eq_iff_iff, lineBits_snd_iff, Bool.and_eq_true, Bool.not_eq_true', Bool.not_eq_true',
    unexploredAt_eq_false_iff]
  refine ⟨fun h => ⟨h a ha fun _ _ => rfl, fun d hd hbranch => ?_⟩, fun ⟨hzero, hnone⟩ d hd hbelow => ?_⟩
  · exact Bool.false_ne_true ((h d hd hbranch.below).symm.trans hbranch.one)
  · by_contra hone
    exact hnone d hd ⟨hbelow, hzero, Bool.eq_true_of_not_eq_false hone⟩

/-- The echoes of a walk are those of the bus on the path to `a` (rule R144). -/
def echoesLine (s : State) (ds : List Word64) (a : Word64) (echo : Nat → Byte) : Prop :=
  ∀ i < 64, echoBit s.params (echo (2 * i)) = (lineBits ds a i).1 ∧
    echoBit s.params (echo (2 * i + 1)) = (lineBits ds a i).2

section Position

variable {s : State} {ds : List Word64} {a : Word64} {echo : Nat → Byte} {i : Nat}
  (hline : echoesLine s ds a echo) (ha : a ∈ ds) (hi : i < 64)
include hline ha hi

/-- What step 6 reads where no device parts from `a` to the 0-branch: the bit of `a`, a collision exactly at an unexplored
branch, and an answer. -/
theorem searchValues_of_line (hleast : ∀ d ∈ ds, ¬BranchesAt d a i) :
    echoBit s.params (echo (2 * i)) = a.getLsbD i ∧ searchCollision s echo i = unexploredAt ds a i ∧
      searchNobody s echo i = false := by
  obtain ⟨hfirst, hsecond⟩ := hline i hi
  rw [lineBits_fst ha hleast] at hfirst
  rw [lineBits_snd ha] at hsecond
  have hone : a.getLsbD i = true → unexploredAt ds a i = false := fun hone => by simp [unexploredAt, hone]
  rw [searchCollision, searchNobody, hfirst, hsecond]
  cases hbit : a.getLsbD i
  · simp
  · simp [hone hbit]

/-- Where a device parts from `a` to the 0-branch, both response bits are 0. -/
theorem searchCollision_of_branch {b : Word64} (hb : b ∈ ds) (hbranch : BranchesAt b a i) :
    searchCollision s echo i = true := by
  obtain ⟨hfirst, hsecond⟩ := hline i hi
  have hzero : (lineBits ds a i).1 = false := by
    rw [← Bool.not_eq_true, lineBits_fst_iff]
    intro hall
    have hone := hall b hb fun j hj => (hbranch.below j hj).symm
    rw [hbranch.zero] at hone
    cases hone
  rw [lineBits_snd ha, hbranch.one] at hsecond
  rw [searchCollision, hfirst, hsecond, hzero]
  rfl

end Position

/-! A search whose walk follows the path to `a` ends with the Search State for `a`. -/

theorem exists_echoesLine {s : State} {ds : List Word64} {a : Word64} (h : busAnswers s ds a) :
    ∃ presence echo, s.chan.recvAhead 0 = some presence ∧ presence ≠ s.params.resetPattern ∧
      (∀ k < 128, s.chan.recvAhead (k + 1) = some (echo k)) ∧ echoesLine s ds a echo := by
  obtain ⟨-, hpresent, hline⟩ := h
  obtain ⟨presence, hrecv, hne⟩ := Option.map_eq_some_iff.mp hpresent
  have hecho : ∀ k < 128, s.chan.recvAhead (k + 1) = some ((s.chan.recvAhead (k + 1)).getD 0) := by
    intro k hk
    obtain ⟨hfirst, hsecond⟩ := hline (k / 2) (by omega)
    obtain ⟨v, hv, -⟩ := Option.map_eq_some_iff.mp hfirst
    obtain ⟨v', hv', -⟩ := Option.map_eq_some_iff.mp hsecond
    obtain heven | hodd := Nat.mod_two_eq_zero_or_one k
    · rw [show k + 1 = 2 * (k / 2) + 1 by omega, hv]
      rfl
    · rw [show k + 1 = 2 * (k / 2) + 2 by omega, hv']
      rfl
  refine ⟨presence, fun k => (s.chan.recvAhead (k + 1)).getD 0, hrecv, bne_iff_ne.mp hne, hecho, fun i hi => ?_⟩
  obtain ⟨hfirst, hsecond⟩ := hline i hi
  rw [hecho (2 * i) (by omega)] at hfirst
  rw [hecho (2 * i + 1) (by omega)] at hsecond
  exact ⟨Option.some.inj hfirst, Option.some.inj hsecond⟩

theorem search_finds {ds : List Word64} {a : Word64} {s : State} (f : Bool) (hverify : verify (addressBytes a) = true)
    (hret : everyCallReturns s) (hnot : ¬(s.ssv = true ∧ s.disc = 0)) (hbus : busAnswers s ds a)
    (hpath : ∀ echo, echoesLine s ds a echo → ∀ i < 64, searchGoesOn s echo i = true ∧
      searchBit s echo i = a.getLsbD i ∧ searchMask s echo i = unexploredAt ds a i ∧
      searchMarks s echo i = unexploredAt ds a i) :
    ∃ t, exec (.search f) s = .next t ∧ t.status = 0x10 ∧ searchStateAfter ds a t := by
  obtain ⟨presence, echo, hrecv, hpresent, hecho, hline⟩ := exists_echoesLine hbus
  have hpath := hpath echo hline
  have hdisc : ∀ i < 64, (fillBits 0 (unexploredAt ds a) 64).getLsbD i = unexploredAt ds a i := fun i hi => by
    rw [getLsbD_fillBits _ _ _ _ hi, if_pos hi]
  obtain ⟨hfound, -⟩ := searchWalkResult f s presence echo a (fillBits 0 (unexploredAt ds a) 64) hret hnot hbus.1 hrecv
    hpresent hecho (fun i hi => (hpath i hi).1) (fun i hi => (hpath i hi).2.1.symm)
    (fun i hi => (hdisc i hi).trans (hpath i hi).2.2.1.symm)
  refine ⟨_, hfound hverify, rfl, rfl, rfl, hdisc, ?_⟩
  rw [toNat_ofNat_lastMarked]
  exact lastMarked_congr fun i hi => (hpath i hi).2.2.2

/-- Settles O28: from an empty Search State every position is resolved by step 6, and no device parts from the least one
to a 0-branch. -/
theorem searchFindsTheFirstDevice : Obligations.SearchFindsTheFirstDevice := by
  intro ds a f s ha hmin hverify hret hssv hbus
  refine search_finds f hverify hret (by simp [hssv]) hbus fun echo hline i hi => ?_
  have hleast : ∀ d ∈ ds, ¬BranchesAt d a i := fun d hd hbranch => by
    obtain rfl | hlt := hmin d hd
    · exact Nat.lt_irrefl _ hbranch.rev64_lt
    · exact Nat.lt_asymm hlt hbranch.rev64_lt
  obtain ⟨hbit, hcollision, hnobody⟩ := searchValues_of_line hline ha hi hleast
  simp [searchGoesOn, searchBit, searchMask, searchMarks, searchStart, hssv, hbit, hcollision, hnobody]

/-- The highest marked position is the one with nothing marked above it. -/
theorem lastMarked_eq {mark : Nat → Bool} {n q : Nat} (hq : q < n) (hmark : mark q = true)
    (habove : ∀ j < n, q < j → mark j = false) : lastMarked mark n = q := by
  obtain ⟨n, rfl⟩ := Nat.exists_eq_add_one_of_ne_zero (Nat.ne_zero_of_lt hq)
  have hle := lastMarked_le mark n
  have htop := marked_lastMarked hq hmark
  obtain hlt | heq | hgt := Nat.lt_trichotomy (lastMarked mark (n + 1)) q
  · exact absurd (not_marked_of_lastMarked_lt hq hlt) (by simp [hmark])
  · exact heq
  · exact absurd (habove _ (by omega) hgt) (by simp [htop])

/-- Settles O29: the two devices part at one position, which is the highest with an unexplored branch on the path to `b`;
below it the walk replays, there it is forced, and above it no device parts from `a` to a 0-branch. -/
theorem searchFindsTheNextDevice : Obligations.SearchFindsTheNextDevice := by
  intro ds a b f s ha hb hba hnext hverify hret ⟨hssv, haddr, hdisc, hldi⟩ hbus
  obtain ⟨q, hq⟩ := exists_branchesAt hba
  have hfollows : ∀ d ∈ ds, rev64 b < rev64 d → ¬rev64 d < rev64 a := fun d hd hbd hda => by
    obtain rfl | had := hnext d hd hbd
    · exact Nat.lt_irrefl _ hda
    · exact Nat.lt_asymm had hda
  have hnone : ∀ j < 64, q < j → unexploredAt ds b j = false := fun j _ hqj => by
    refine unexploredAt_eq_false_iff.mpr fun d hd hbranch => hfollows d hd hbranch.rev64_lt ?_
    have hda : BranchesAt d a q := ⟨fun k hk => (hq.below k hk).trans (hbranch.below k (hk.trans hqj)).symm,
      (hbranch.below q hqj).trans hq.zero, hq.one⟩
    exact hda.rev64_lt
  have hmark : unexploredAt ds b q = true := unexploredAt_iff.mpr ⟨a, ha, hq⟩
  rw [lastMarked_eq hq.lt hmark hnone] at hldi
  have hnot : s.disc ≠ 0 := fun hzero => by
    have hbit := hdisc q hq.lt
    rw [hmark, hzero] at hbit
    simp at hbit
  refine search_finds f hverify hret (fun h => hnot h.2) hbus fun echo hline i hi => ?_
  obtain hlt | rfl | hgt := Nat.lt_trichotomy i q
  · have hsame : unexploredAt ds a i = unexploredAt ds b i := unexploredAt_congr fun j hj => hq.below j (by omega)
    have hne : i ≠ q := hlt.ne
    simp [searchGoesOn, searchBit, searchMask, searchMarks, searchStart, hssv, hldi, hlt, hne, haddr, hdisc i hi,
      hq.below i hlt, hsame, Nat.lt_succ_of_lt hlt]
  · have hcollision := searchCollision_of_branch hline ha hi hb hq
    have hexplored : unexploredAt ds a i = false := by simp [unexploredAt, hq.one]
    simp [searchGoesOn, searchBit, searchMask, searchMarks, hssv, hldi, hcollision, hq.one, hexplored]
  · have hleast : ∀ d ∈ ds, ¬BranchesAt d a i := fun d hd hbranch => by
      have hbd : BranchesAt b d q := ⟨fun k hk => (hbranch.below k (hk.trans hgt)).symm.trans (hq.below k hk), hq.zero,
        (hbranch.below q hgt).symm.trans hq.one⟩
      exact hfollows d hd hbd.rev64_lt hbranch.rev64_lt
    obtain ⟨hbit, hcollision, hnobody⟩ := searchValues_of_line hline ha hi hleast
    have hnlt : ¬i < q := Nat.lt_asymm hgt
    have hne : i ≠ q := hgt.ne'
    simp [searchGoesOn, searchBit, searchMask, searchMarks, hssv, hldi, hnlt, hne, hbit, hcollision, hnobody, hdisc i hi,
      hnone i hi hgt]

/-- Settles O30: a device with an unexplored branch beside its path has a smaller key than one behind that branch, so the
mask of the last device is 0. -/
theorem searchEndsAfterTheLastDevice : Obligations.SearchEndsAfterTheLastDevice := by
  intro ds b f s _ hmax ⟨hssv, _, hdisc, _⟩
  have hzero : s.disc = 0 := BitVec.eq_of_getLsbD_eq fun i hi => by
    rw [hdisc i hi, unexploredAt_eq_false_iff.mpr fun d hd hbranch =>
      Nat.not_lt.mpr (hmax d hd) hbranch.rev64_lt]
    simp
  exact (searchExhaustedTouchesNoBus f s).1 hssv hzero

end Sys2Proof.Machine

/-! ## A search that ends before step 7 (rules R106, R107, R143 to R147, R151) -/

namespace Sys2Proof.Machine

theorem runCommand_of_error {α : Type} {s : State} {o : Op α} {k : ErrorKind} {c : Channel}
    (commit : α → State → State) (hret : everyCallReturns s) (h : o s.chan = ⟨.error k, c⟩) :
    runCommand s o commit = .next { s with status := errorStatus k, chan := c } := by
  rw [runCommand_returns s o commit hret, settle_error h]
  rfl

/-! A position of the walk as a pair of read slots and an answer to them (rules R145 to R147). -/

/-- The response bits that the echoes of position `i` stand for (rule R144). -/
def echoPair (s : State) (echo : Nat → Byte) (i : Nat) : Bool × Bool :=
  (echoBit s.params (echo (2 * i)), echoBit s.params (echo (2 * i + 1)))

/-- The operation reads the pair of position `i`; where the walk does not go on it raises `UnexpectedResponse`, and where
it does it writes the position's bit. -/
def answersPosition (s : State) (echo : Nat → Byte) (i : Nat) (o : Op Walk) : Prop :=
  ∃ answer, o = (readPair s.params).bind answer ∧
    (searchGoesOn s echo i = false → answer (echoPair s echo i) = .raise .unexpectedResponse) ∧
    (searchGoesOn s echo i = true → ∃ rest,
      answer (echoPair s echo i) = (writeBit s.params (searchBit s echo i)).bind rest)

section Positions

variable {s : State} {echo : Nat → Byte} {i : Nat}

theorem replayPosition_answers (hi : i < 64) (hssv : s.ssv = true) (hlt : i < s.ldi.toNat) :
    answersPosition s echo i (replayPosition s.params i (walkBefore s echo i)) := by
  have hbit : (walkBefore s echo i).addr.getLsbD i = searchBit s echo i := by
    simp [walkBefore_addr_getLsbD s echo hi, searchBit, searchOrigin, hssv, hlt]
  have hgo : searchGoesOn s echo i = true := by
    simp [searchGoesOn, searchStart, hssv, hlt.ne, Nat.lt_succ_of_lt hlt]
  refine ⟨_, rfl, fun hstop => absurd (hgo.symm.trans hstop) (by decide), fun _ => ?_⟩
  rw [← hbit]
  exact ⟨_, rfl⟩

theorem forcedBranch_answers (hssv : s.ssv = true) (heq : i = s.ldi.toNat) :
    answersPosition s echo i (forcedBranch s.params i (walkBefore s echo i)) := by
  have hbit : searchBit s echo i = true := by simp [searchBit, hssv, heq]
  have hgo : searchGoesOn s echo i = searchCollision s echo i := by simp [searchGoesOn, hssv, heq]
  have hpair : ((echoPair s echo i).1 || (echoPair s echo i).2) = !searchCollision s echo i := by
    rw [searchCollision, ← Bool.not_or, Bool.not_not]
    rfl
  refine ⟨_, rfl, fun hstop => ?_, fun hgoes => ?_⟩
  · rw [hpair, ← hgo, hstop]
    rfl
  · rw [hpair, ← hgo, hgoes, hbit]
    exact ⟨_, rfl⟩

theorem resolvePosition_answers (hi : i < 64) (hstart : searchStart s ≤ i)
    (hgo : searchGoesOn s echo i = !searchNobody s echo i) :
    answersPosition s echo i (resolvePosition s.params i (walkBefore s echo i)) := by
  refine ⟨_, rfl, fun hstop => ?_, fun hgoes => ?_⟩ <;> rw [echoPair]
  · rw [hgo] at hstop
    obtain ⟨hfirst, hsecond⟩ : echoBit s.params (echo (2 * i)) = true ∧ echoBit s.params (echo (2 * i + 1)) = true := by
      simpa [searchNobody] using hstop
    rw [hfirst, hsecond]
  · obtain ⟨hanswer, hbit, -, -⟩ := searchValues_of_start_le hstart hi hgoes
    rw [hbit]
    cases hfirst : echoBit s.params (echo (2 * i)) <;> cases hsecond : echoBit s.params (echo (2 * i + 1))
    case true.true => simp [searchNobody, hfirst, hsecond] at hanswer
    all_goals exact ⟨_, rfl⟩

theorem searchPosition_answers (hi : i < 64) :
    answersPosition s echo i (searchPosition s i (walkBefore s echo i)) := by
  unfold searchPosition
  split_ifs with hssv hlt heq
  · exact replayPosition_answers hi hssv hlt
  · exact forcedBranch_answers hssv heq
  · refine resolvePosition_answers hi ?_ ?_
    · rw [searchStart, if_pos hssv]
      omega
    · simp [searchGoesOn, searchStart, hssv, heq, Nat.not_lt.mpr (show s.ldi.toNat + 1 ≤ i by omega)]
  · refine resolvePosition_answers hi ?_ ?_ <;> simp [searchStart, searchGoesOn, hssv]

end Positions

/-! The ways a position fails, on any channel. -/

theorem readPair_position {s : State} {echo : Nat → Byte} {i : Nat} {c : Channel} (hsend : c.sendAhead 0 = true)
    (hrecv : c.recvAhead 0 = some (echo (2 * i))) (hsend' : c.sendAhead 1 = true)
    (hrecv' : c.recvAhead 1 = some (echo (2 * i + 1))) :
    readPair s.params c = ⟨.ok (echoPair s echo i),
      c.advance 2 2 (readSlot (some (echo (2 * i))) ++ readSlot (some (echo (2 * i + 1))))⟩ := by
  refine readPair_echoes s.params c _ _ (fun k hk => ?_) hrecv hrecv'
  obtain rfl | rfl : k = 0 ∨ k = 1 := by omega
  · exact hsend
  · exact hsend'

section Failures

variable {s : State} {echo : Nat → Byte} {i : Nat} {o : Op Walk} {c : Channel} (ho : answersPosition s echo i o)
include ho

theorem position_send_fails (hsend : c.sendAhead 0 = false) :
    o c = ⟨.error .channelFailure, c.advance 1 0 readSlotCut⟩ := by
  obtain ⟨answer, rfl, -, -⟩ := ho
  exact Op.bind_of_error (Op.bind_of_error (readBit_send_fails _ c hsend))

theorem position_no_echo (hsend : c.sendAhead 0 = true) (hrecv : c.recvAhead 0 = none) :
    o c = ⟨.error .channelFailure, c.advance 1 1 (readSlot none)⟩ := by
  obtain ⟨answer, rfl, -, -⟩ := ho
  exact Op.bind_of_error (Op.bind_of_error (readBit_no_echo _ c hsend hrecv))

variable (hsend : c.sendAhead 0 = true) (hrecv : c.recvAhead 0 = some (echo (2 * i)))
include hsend hrecv

/-- The second slot of the pair fails, whatever made it fail. -/
theorem position_second_slot_fails {n m : Nat} {es : List Event}
    (h : ∀ c', c'.sendAhead 0 = c.sendAhead 1 → c'.recvAhead 0 = c.recvAhead 1 →
      readBit s.params c' = ⟨.error .channelFailure, c'.advance n m es⟩) :
    o c = ⟨.error .channelFailure, c.advance (1 + n) (1 + m) (readSlot (some (echo (2 * i))) ++ es)⟩ := by
  obtain ⟨answer, rfl, -, -⟩ := ho
  have hsecond := h (c.advance 1 1 (readSlot (some (echo (2 * i))))) (by simp) (by simp)
  rw [Channel.advance_advance] at hsecond
  exact Op.bind_of_error ((Op.bind_of_ok (readBit_echo _ c _ hsend hrecv)).trans (Op.bind_of_error hsecond))

theorem position_second_send_fails (hsend' : c.sendAhead 1 = false) :
    o c = ⟨.error .channelFailure, c.advance 2 1 (readSlot (some (echo (2 * i))) ++ readSlotCut)⟩ :=
  position_second_slot_fails ho hsend hrecv fun c' hc' _ => readBit_send_fails _ c' (hc'.trans hsend')

theorem position_no_second_echo (hsend' : c.sendAhead 1 = true) (hrecv' : c.recvAhead 1 = none) :
    o c = ⟨.error .channelFailure, c.advance 2 2 (readSlot (some (echo (2 * i))) ++ readSlot none)⟩ :=
  position_second_slot_fails ho hsend hrecv fun c' hc' hc'' =>
    readBit_no_echo _ c' (hc'.trans hsend') (hc''.trans hrecv')

variable (hsend' : c.sendAhead 1 = true) (hrecv' : c.recvAhead 1 = some (echo (2 * i + 1)))
include hsend' hrecv'

theorem position_unexpected (hgo : searchGoesOn s echo i = false) :
    o c = ⟨.error .unexpectedResponse,
      c.advance 2 2 (readSlot (some (echo (2 * i))) ++ readSlot (some (echo (2 * i + 1))))⟩ := by
  have hpair := readPair_position (s := s) hsend hrecv hsend' hrecv'
  obtain ⟨answer, rfl, hstop, -⟩ := ho
  rw [Op.bind_of_ok hpair, hstop hgo, Op.raise_apply]

theorem position_write_fails (hgo : searchGoesOn s echo i = true) (hwrite : c.sendAhead 2 = false) :
    o c = ⟨.error .channelFailure,
      c.advance 3 2 (readSlot (some (echo (2 * i))) ++ readSlot (some (echo (2 * i + 1))) ++
        writeSlot s.params (searchBit s echo i) false)⟩ := by
  have hpair := readPair_position (s := s) hsend hrecv hsend' hrecv'
  obtain ⟨answer, rfl, -, hgoes⟩ := ho
  obtain ⟨rest, hanswer⟩ := hgoes hgo
  rw [Op.bind_of_ok hpair, hanswer]
  refine Op.bind_of_error ?_
  rw [writeBit_apply, Channel.advance_sendAhead, hwrite, Channel.advance_advance]
  rfl

end Failures

/-! The command, when its walk fails. -/

/-- The channel before position `i` of the walk (rules R142 to R147). -/
theorem walkChannel_searchHead (s : State) (f : Bool) (presence : Byte) (echo : Nat → Byte) (i : Nat) :
    walkChannel s echo (s.chan.advance 9 1 (searchHead s f presence)) i =
      s.chan.advance (9 + 3 * i) (2 * i + 1) (searchUpTo s f presence echo i) := by
  rw [walkChannel, Channel.advance_advance, Nat.add_comm 1]
  rfl

section Command

variable {f : Bool} {s : State} {presence : Byte} (hret : everyCallReturns s) (hnot : ¬(s.ssv = true ∧ s.disc = 0))
  (hrecv : s.chan.recvAhead 0 = some presence) (hpresent : presence ≠ s.params.resetPattern)
include hret hnot hrecv hpresent

/-- A failed send of the command byte (rule R143). -/
theorem search_command_fails {i : Nat} (hi : i < 8) (hsend : sendsSucceed s.chan (i + 1))
    (hfail : s.chan.sendAhead (i + 1) = false) :
    exec (.search f) s = .next { s with
      status := 0x01,
      chan := s.chan.advance (i + 2) 1
        (resetSlot s.params (some presence) ++
          writeSlots s.params i (fun j => (searchCommandByte s.params f).getLsbD j) ++
          writeSlot s.params ((searchCommandByte s.params f).getLsbD i) false) } := by
  have hreset := busReset_echo s.params s.chan presence (hsend 0 (by omega)) hrecv
  rw [bne_iff_ne.mpr hpresent] at hreset
  rw [Nat.add_comm] at hsend hfail
  have hbyte := writeByte_send_fails s.params (searchCommandByte s.params f) _ i hi
    (sendsSucceed_advance hsend 1 (resetSlot s.params (some presence))) (by simpa using hfail)
  rw [Channel.advance_advance] at hbyte
  have hend : (busReset s.params).bind (searchAfterReset s f) s.chan = ⟨.error .channelFailure, _⟩ :=
    (Op.bind_of_ok hreset).trans (Op.bind_of_error hbyte)
  rw [exec_search, deviceSearch_of_not_exhausted f hnot, runCommand_of_error _ hret hend, List.append_assoc,
    show i + 2 = 1 + (i + 1) by omega]
  rfl

/-- The walk fails at position `i` as that position does. -/
theorem search_position_fails {echo : Nat → Byte} {i : Nat} (hi : i < 64) (hsend : sendsSucceed s.chan (9 + 3 * i))
    (hecho : ∀ k < 2 * i, s.chan.recvAhead (k + 1) = some (echo k)) (hgo : ∀ j < i, searchGoesOn s echo j = true)
    {k : ErrorKind} {n m : Nat} {es : List Event}
    (hfail : ∀ o c, answersPosition s echo i o → (∀ j, c.sendAhead j = s.chan.sendAhead (9 + 3 * i + j)) →
      (∀ j, c.recvAhead j = s.chan.recvAhead (2 * i + 1 + j)) → o c = ⟨.error k, c.advance n m es⟩) :
    exec (.search f) s = .next { s with
      status := errorStatus k,
      chan := s.chan.advance (9 + 3 * i + n) (2 * i + 1 + m) (searchUpTo s f presence echo i ++ es) } := by
  have hposition := hfail _ (s.chan.advance (9 + 3 * i) (2 * i + 1) (searchUpTo s f presence echo i))
    (searchPosition_answers hi) (fun j => by simp) (fun j => by simp)
  rw [Channel.advance_advance, ← walkChannel_searchHead] at hposition
  have hturn : ∀ j < i, searchPosition s (0 + j) (walkBefore s echo j)
      (walkChannel s echo (s.chan.advance 9 1 (searchHead s f presence)) j) =
        ⟨.ok (walkBefore s echo (j + 1)),
          walkChannel s echo (s.chan.advance 9 1 (searchHead s f presence)) (j + 1)⟩ := fun j hj => by
    rw [Nat.zero_add]
    exact searchPosition_turn (fun l hl => by simpa using hsend (9 + l) (by omega))
      (fun l hl => by simpa [Nat.add_comm] using hecho l (by omega)) (hj.trans hi) (hgo j hj)
  have hwalk := Op.loop_of_turn_error (body := searchPosition s) (i := 0) (walkBefore s echo)
    (walkChannel s echo (s.chan.advance 9 1 (searchHead s f presence))) hi hturn (by rwa [Nat.zero_add])
  have hend := reset_bind_searchAfterReset_present f (fun l hl => hsend l (by omega)) hrecv hpresent
  rw [walkBefore_zero, ← walkPositions_eq_loop, walkChannel, walkSlots_zero, Channel.advance_zero] at hwalk
  rw [Op.bind_of_error hwalk] at hend
  rw [exec_search, deviceSearch_of_not_exhausted f hnot, runCommand_of_error _ hret hend]

end Command

/-- Settles O27: the search ends in its command byte, or at a position of its walk in the way that position fails. -/
theorem searchEndsEarly : Obligations.SearchEndsEarly := by
  intro f s presence echo i hret hnot hrecv hpresent
  refine ⟨fun hi hsend hfail => search_command_fails hret hnot hrecv hpresent hi hsend hfail,
    fun hi hsend hecho hgo => ?_⟩
  have hends {k : ErrorKind} {n m : Nat} {es : List Event} := search_position_fails (f := f) (k := k) (n := n) (m := m)
    (es := es) hret hnot hrecv hpresent hi hsend hecho hgo
  rw [show 10 + 3 * i = 9 + 3 * i + 1 by omega, show 11 + 3 * i = 9 + 3 * i + 2 by omega,
    show 12 + 3 * i = 9 + 3 * i + 3 by omega]
  simp only [List.append_assoc]
  refine ⟨fun hfail => ?_, fun hfirst hnone => ?_, fun hfirst hecho1 => ⟨fun hfail => ?_, fun hsecond hnone => ?_,
    fun hsecond hecho2 => ⟨fun hstop => ?_, fun hgoes hfail => ?_⟩⟩⟩
  · exact hends fun o c ho hs _ => position_send_fails ho ((hs 0).trans hfail)
  · exact hends fun o c ho hs hr => position_no_echo ho ((hs 0).trans hfirst) ((hr 0).trans hnone)
  · exact hends fun o c ho hs hr =>
      position_second_send_fails ho ((hs 0).trans hfirst) ((hr 0).trans hecho1) ((hs 1).trans hfail)
  · exact hends fun o c ho hs hr => position_no_second_echo ho ((hs 0).trans hfirst) ((hr 0).trans hecho1)
      ((hs 1).trans hsecond) ((hr 1).trans hnone)
  · exact hends fun o c ho hs hr => position_unexpected ho ((hs 0).trans hfirst) ((hr 0).trans hecho1)
      ((hs 1).trans hsecond) ((hr 1).trans hecho2) hstop
  · rw [← List.append_assoc (readSlot _) (readSlot _)]
    exact hends fun o c ho hs hr => position_write_fails ho ((hs 0).trans hfirst) ((hr 0).trans hecho1)
      ((hs 1).trans hsecond) ((hr 1).trans hecho2) hgoes ((hs 2).trans hfail)

end Sys2Proof.Machine

/-! ## Host software: a measurement and its temperature (rules R170, R171, R174, R175) -/

namespace Sys2Proof.Machine

/-- A command that ends with `STATUS = 0x00` lets the sequence go on (rule R170). -/
theorem hostIssue_of_ok {i : Instr} {s t : State} (h : exec i s = .next t) (hstatus : t.status = 0x00) :
    hostIssue i s = .ok () t := by
  rw [hostIssue, h]
  exact if_pos (by rw [hstatus]; rfl)

/-- Settles O59: the skip, and then the start-conversion byte from the state it leaves. -/
theorem broadcastMeasurementSequence : Obligations.BroadcastMeasurementSequence := by
  intro s presence hret hsend hrecv hpresent
  have hskip := ((skipAddressSendsTheCommand.2 s hret).2 presence hrecv hpresent).1 fun k hk => hsend k (by omega)
  have hconvert := (writeByteSendsEightSlotsLsbFirst.2 s.params.cmdConvert
    { s with
      status := 0x00
      chan := s.chan.advance 9 1 (resetSlot s.params (some presence) ++
        writeSlots s.params 8 fun j => s.params.cmdSkipAddress.getLsbD j) } hret).1
    (sendsSucceed_advance (n := 9) hsend _ _)
  refine ⟨_, ?_, rfl⟩
  rw [startMeasurement, hostAddress, hostIssue_of_ok hskip rfl, HostResult.bind, hostIssue_of_ok hconvert rfl,
    Channel.advance_advance]

/-! The parts of a Raw Reading (rule R174). -/

theorem celsiusMagnitude_eq (lsb msb : Byte) : celsiusMagnitude lsb msb = lsb.toNat / 16 + 16 * (msb.toNat % 8) := by
  have hlow : lsb.toNat >>> 4 = lsb.toNat / 16 := Nat.shiftRight_eq_div_pow _ 4
  have hmask : msb.toNat &&& 7 = msb.toNat % 8 := Nat.and_two_pow_sub_one_eq_mod _ 3
  have hlt := lsb.isLt
  rw [celsiusMagnitude, BitVec.toNat_or, BitVec.toNat_ushiftRight, BitVec.toNat_shiftLeft, BitVec.toNat_and,
    show (0x07 : Byte).toNat = 7 from rfl, hlow, hmask, Nat.shiftLeft_eq, Nat.mod_eq_of_lt (by omega), Nat.or_comm,
    ← Nat.shiftLeft_eq, ← Nat.shiftLeft_add_eq_or_of_lt (by omega), Nat.shiftLeft_eq]
  omega

theorem celsiusFraction_eq (lsb : Byte) : celsiusFraction lsb = 6 * (lsb.toNat % 16) := by
  have hmask : lsb.toNat &&& 15 = lsb.toNat % 16 := Nat.and_two_pow_sub_one_eq_mod _ 4
  rw [celsiusFraction, BitVec.toNat_and, show (0x0F : Byte).toNat = 15 from rfl, hmask, Nat.mul_comm]

theorem celsiusMagnitude_le (lsb msb : Byte) : celsiusMagnitude lsb msb ≤ 127 := by
  have := lsb.isLt
  rw [celsiusMagnitude_eq]
  omega

theorem celsiusFraction_le (lsb : Byte) : celsiusFraction lsb ≤ 90 := by
  rw [celsiusFraction_eq]
  omega

/-- The magnitude that is signed: complemented above the threshold (rule R174). -/
def signedMagnitude (p : Params) (lsb msb : Byte) : Nat :=
  if p.negThreshold.toNat < msb.toNat then 127 - celsiusMagnitude lsb msb else celsiusMagnitude lsb msb

theorem ult_eq_decide (a b : Byte) : a.ult b = decide (a.toNat < b.toNat) := rfl

/-- The decode, the second scale of the fraction being never taken (rule R175, C6). -/
theorem decodeCelsius_eq (p : Params) (lsb msb : Byte) :
    decodeCelsius p lsb msb =
      if p.negThreshold.toNat < msb.toNat then
        -((signedMagnitude p lsb msb * 1000 + celsiusFraction lsb * 10 : Nat) : Int)
      else ((signedMagnitude p lsb msb * 1000 + celsiusFraction lsb * 10 : Nat) : Int) := by
  have hscale : celsiusFraction lsb < 100 := (celsiusFraction_le lsb).trans_lt (by decide)
  unfold decodeCelsius signedMagnitude
  dsimp only
  rw [if_pos hscale, ult_eq_decide]
  by_cases hneg : p.negThreshold.toNat < msb.toNat
  · rw [decide_eq_true hneg, if_pos hneg, if_pos hneg]
    rfl
  · rw [decide_eq_false hneg, if_neg hneg, if_neg hneg]
    rfl

theorem decodeCelsiusIn_eq (format : FloatFormat) (p : Params) (lsb msb : Byte) :
    decodeCelsiusIn format p lsb msb =
      if p.negThreshold.toNat < msb.toNat then
        format.neg (format.ofRat ((signedMagnitude p lsb msb : Rat) +
          format.toRat (format.ofRat ((celsiusFraction lsb : Rat) / 100))))
      else format.ofRat ((signedMagnitude p lsb msb : Rat) +
          format.toRat (format.ofRat ((celsiusFraction lsb : Rat) / 100))) := by
  have hscale : celsiusFraction lsb < 100 := (celsiusFraction_le lsb).trans_lt (by decide)
  unfold decodeCelsiusIn signedMagnitude
  dsimp only
  rw [if_pos hscale, ult_eq_decide]
  by_cases hneg : p.negThreshold.toNat < msb.toNat
  · rw [decide_eq_true hneg, if_pos hneg, if_pos hneg]
    rfl
  · rw [decide_eq_false hneg, if_neg hneg, if_neg hneg]
    rfl

theorem signedMagnitude_of_negative {p : Params} {lsb msb : Byte} (h : p.negThreshold.toNat < msb.toNat) :
    (signedMagnitude p lsb msb : Int) = 127 - celsiusMagnitude lsb msb := by
  rw [signedMagnitude, if_pos h, Nat.cast_sub (celsiusMagnitude_le lsb msb)]
  rfl

theorem signedMagnitude_of_not_negative {p : Params} {lsb msb : Byte} (h : ¬p.negThreshold.toNat < msb.toNat) :
    (signedMagnitude p lsb msb : Int) = celsiusMagnitude lsb msb := by
  rw [signedMagnitude, if_neg h]

theorem signedMagnitude_le (p : Params) (lsb msb : Byte) : signedMagnitude p lsb msb ≤ 127 := by
  have := celsiusMagnitude_le lsb msb
  unfold signedMagnitude
  split <;> omega

/-! A floating-point value, from the magnitude on (rule R175 item iv). -/

section Floating

variable {round : Rat → Rat}

theorem floatingFormat_ofRat_of_nonneg {q : Rat} (hq : 0 ≤ q) :
    (floatingFormat round).ofRat q = SignedValue.mk false (round q) := by
  simp [floatingFormat, not_lt.mpr hq]

theorem floatingFormat_toRat_ofRat_of_nonneg {q : Rat} (hq : 0 ≤ q) :
    (floatingFormat round).toRat ((floatingFormat round).ofRat q) = round q := by
  rw [floatingFormat_ofRat_of_nonneg hq]
  rfl

theorem decodeCelsiusIn_floating (p : Params) (lsb msb : Byte)
    (hround : 0 ≤ round ((celsiusFraction lsb : Rat) / 100)) :
    decodeCelsiusIn (floatingFormat round) p lsb msb = SignedValue.mk (decide (p.negThreshold.toNat < msb.toNat))
      (round ((signedMagnitude p lsb msb : Rat) + round ((celsiusFraction lsb : Rat) / 100))) := by
  have hfraction : (0 : Rat) ≤ (celsiusFraction lsb : Rat) / 100 := by positivity
  have hsum : (0 : Rat) ≤ (signedMagnitude p lsb msb : Rat) + round ((celsiusFraction lsb : Rat) / 100) := by positivity
  rw [decodeCelsiusIn_eq, floatingFormat_toRat_ofRat_of_nonneg hfraction]
  by_cases hneg : p.negThreshold.toNat < msb.toNat
  · rw [if_pos hneg, decide_eq_true hneg, floatingFormat_ofRat_of_nonneg hsum]
    rfl
  · rw [if_neg hneg, decide_eq_false hneg, floatingFormat_ofRat_of_nonneg hsum]

end Floating

/-- Settles O58: magnitude and fraction as numbers, and the sign, which the two branches of the value share. -/
theorem celsiusValue : Obligations.CelsiusValue := by
  intro p lsb msb high hundredths value
  have hhigh : high = (celsiusMagnitude lsb msb : Int) := by
    rw [celsiusMagnitude_eq]
    push_cast
    rfl
  have hhundredths : hundredths = (celsiusFraction lsb : Int) := by
    rw [celsiusFraction_eq]
    push_cast
    rfl
  have hvalue : value = if p.negThreshold.toNat < msb.toNat then -((127 - high) * 1000 + hundredths * 10)
      else high * 1000 + hundredths * 10 := rfl
  clear_value high hundredths value
  subst hhigh hhundredths
  have hsigned := signedMagnitude_le p lsb msb
  have hfraction := celsiusFraction_le lsb
  have hdecode : decodeCelsius p lsb msb = value := by
    rw [decodeCelsius_eq, hvalue]
    split
    · next h => rw [← signedMagnitude_of_negative h]; push_cast; rfl
    · next h => rw [← signedMagnitude_of_not_negative h]; push_cast; rfl
  have hrange : -127900 ≤ value ∧ value ≤ 127900 := by
    rw [← hdecode, decodeCelsius_eq]
    split <;> omega
  refine ⟨by omega, hdecode, hrange.1, hrange.2, ?_, fun format => ?_, fun round hround => ?_,
    fun round hzero hneg hhigh hhund => ?_⟩
  · rw [← hdecode, decodeCelsius_eq, decodeCelsiusIn_eq]
    simp only [exactFormat]
    split
    · push_cast
      ring
    · push_cast
      ring
  · rw [decodeCelsiusIn_eq]
    split
    · next h => rw [← signedMagnitude_of_negative h, Int.cast_natCast, Int.cast_natCast]
    · next h => rw [← signedMagnitude_of_not_negative h, Int.cast_natCast, Int.cast_natCast]
  · exact ⟨_, decodeCelsiusIn_floating p lsb msb (hround _ (by positivity))⟩
  · have hmag : signedMagnitude p lsb msb = 0 := by
      have := signedMagnitude_of_negative (lsb := lsb) hneg
      omega
    have hfrac : celsiusFraction lsb = 0 := by exact_mod_cast hhund
    refine ⟨?_, ?_⟩
    · rw [← hdecode, decodeCelsius_eq, if_pos hneg, hmag, hfrac]
      rfl
    · rw [decodeCelsiusIn_floating p lsb msb (by simp [hfrac, hzero]), decide_eq_true hneg, hmag, hfrac]
      exact congrArg (SignedValue.mk true) (by simp [hzero])

end Sys2Proof.Machine

/-! ## Host software: the address text form (rules R177, R178) -/

namespace Sys2Proof.Machine

/-! Bytes and addresses (rule R61). -/

theorem getLsbD_addressOfBytes (l : List Byte) (k : Nat) {i : Nat} (hi : i < 64) :
    (addressOfBytes k l).getLsbD i = (decide (k ≤ i / 8) && (l.getD (i / 8 - k) 0).getLsbD (i % 8)) := by
  induction l generalizing k with
  | nil => simp [addressOfBytes]
  | cons v l ih =>
    rw [addressOfBytes, getLsbD_setByteLane_div _ _ _ hi, ih]
    obtain hlt | rfl | hgt := Nat.lt_trichotomy (i / 8) k
    · rw [if_neg hlt.ne, decide_eq_false (by omega), decide_eq_false (by omega)]
      rfl
    · simp
    · obtain ⟨d, hd⟩ := Nat.exists_eq_add_of_lt hgt
      rw [if_neg hgt.ne', hd, decide_eq_true (by omega), decide_eq_true (by omega),
        show k + d + 1 - (k + 1) = d by omega, show k + d + 1 - k = d + 1 by omega]
      rfl

/-- Each lane of the address is its byte. -/
theorem byteLane_addressOfBytes (l : List Byte) {j : Nat} (hj : j < 8) :
    byteLane (addressOfBytes 0 l) j = l.getD j 0 := by
  refine BitVec.eq_of_getLsbD_eq fun i hi => ?_
  rw [getLsbD_byteLane, getLsbD_addressOfBytes _ _ (by omega), show (8 * j + i) / 8 = j by omega,
    show (8 * j + i) % 8 = i by omega]
  simp [hi]

/-- Eight lanes are the whole address. -/
theorem eq_of_byteLane {a b : Word64} (h : ∀ j < 8, byteLane a j = byteLane b j) : a = b := by
  refine BitVec.eq_of_getLsbD_eq fun i hi => ?_
  have hlane : (byteLane a (i / 8)).getLsbD (i % 8) = (byteLane b (i / 8)).getLsbD (i % 8) := by
    rw [h (i / 8) (by omega)]
  rw [getLsbD_byteLane, getLsbD_byteLane, Nat.div_add_mod, decide_eq_true (Nat.mod_lt i (by decide))] at hlane
  exact hlane

theorem getD_addressBytes (a : Word64) {j : Nat} (hj : j < 8) : (addressBytes a).getD j 0 = byteLane a j := by
  obtain rfl | rfl | rfl | rfl | rfl | rfl | rfl | rfl :
    j = 0 ∨ j = 1 ∨ j = 2 ∨ j = 3 ∨ j = 4 ∨ j = 5 ∨ j = 6 ∨ j = 7 := by omega
  all_goals rfl

theorem addressOfBytes_addressBytes (a : Word64) : addressOfBytes 0 (addressBytes a) = a :=
  eq_of_byteLane fun j hj => by rw [byteLane_addressOfBytes _ hj, getD_addressBytes a hj]

/-! Digits. -/

theorem hexValue_hexDigit (upperCase : Bool) (v : BitVec 4) : hexValue (hexDigit upperCase v) = some v := by
  revert upperCase v
  decide

theorem high_append_low (v : Byte) : v.extractLsb' 4 4 ++ v.extractLsb' 0 4 = v := by
  rw [BitVec.extractLsb'_append_extractLsb'_eq_extractLsb' (by rfl)]
  exact BitVec.extractLsb'_eq_self

/-! What a formatter writes. -/

/-- The separator of a style. -/
def separator (style : TextStyle) : Char := if style.hyphen then '-' else ':'

theorem formatBytes_cons_cons (style : TextStyle) (v w : Byte) (l : List Byte) :
    formatBytes style (v :: w :: l) = hexDigit style.upperCase (v.extractLsb' 4 4) ::
      hexDigit style.upperCase (v.extractLsb' 0 4) :: separator style :: formatBytes style (w :: l) := rfl

theorem separator_eq (style : TextStyle) : separator style = ':' ∨ separator style = '-' := by
  unfold separator
  split
  · exact .inr rfl
  · exact .inl rfl

theorem length_formatBytes (style : TextStyle) (v : Byte) (l : List Byte) :
    (formatBytes style (v :: l)).length = 3 * l.length + 2 := by
  induction l generalizing v with
  | nil => rfl
  | cons w l ih =>
    rw [formatBytes_cons_cons, List.length_cons, List.length_cons, List.length_cons, ih, List.length_cons]
    omega

theorem mem_formatBytes {style : TextStyle} {l : List Byte} {c : Char} (h : c ∈ formatBytes style l) :
    (∃ v, c = hexDigit style.upperCase v) ∨ c = separator style := by
  induction l with
  | nil => cases h
  | cons v l ih =>
    cases l with
    | nil =>
      obtain rfl | rfl : c = hexDigit style.upperCase (v.extractLsb' 4 4) ∨
          c = hexDigit style.upperCase (v.extractLsb' 0 4) := by simpa [formatBytes, formatByte] using h
      · exact .inl ⟨_, rfl⟩
      · exact .inl ⟨_, rfl⟩
    | cons w l =>
      rw [formatBytes_cons_cons] at h
      simp only [List.mem_cons] at h
      obtain rfl | rfl | rfl | h := h
      · exact .inl ⟨_, rfl⟩
      · exact .inl ⟨_, rfl⟩
      · exact .inr rfl
      · exact ih h

/-! What a parser makes of digit pairs. -/

/-- A last pair parses to its byte. -/
theorem parsePairs_pair_iff {h l : Char} {bytes : List Byte} :
    parsePairs [h, l] = some bytes ↔ ∃ a b, hexValue h = some a ∧ hexValue l = some b ∧ bytes = [a ++ b] := by
  rw [parsePairs]
  cases hexValue h <;> cases hexValue l <;> simp [eq_comm]

/-- A pair with a separator after it parses to its byte, before those of the rest. -/
theorem parsePairs_cons_iff {h l sep : Char} {rest : List Char} {bytes : List Byte} :
    parsePairs (h :: l :: sep :: rest) = some bytes ↔
      ∃ a b more, hexValue h = some a ∧ hexValue l = some b ∧ (sep = ':' ∨ sep = '-') ∧ parsePairs rest = some more ∧
        bytes = (a ++ b) :: more := by
  rw [parsePairs]
  by_cases hsep : sep = ':' ∨ sep = '-'
  · rw [decide_eq_true hsep]
    cases hexValue h <;> cases hexValue l <;> cases parsePairs rest <;> simp [hsep, eq_comm]
  · rw [decide_eq_false hsep]
    simp [hsep]

theorem parsePairs_formatBytes (style : TextStyle) (v : Byte) (l : List Byte) :
    parsePairs (formatBytes style (v :: l)) = some (v :: l) := by
  induction l generalizing v with
  | nil =>
    exact parsePairs_pair_iff.mpr ⟨_, _, hexValue_hexDigit _ _, hexValue_hexDigit _ _, by rw [high_append_low]⟩
  | cons w l ih =>
    rw [formatBytes_cons_cons]
    exact parsePairs_cons_iff.mpr ⟨_, _, _, hexValue_hexDigit _ _, hexValue_hexDigit _ _, separator_eq style, ih w,
      by rw [high_append_low]⟩

/-- A text of `n + 1` pairs with a separator between each has a first pair, and `n` more behind a separator. -/
theorem exists_cons_of_length {text : List Char} {n : Nat} (h : text.length = 3 * (n + 1) + 2) :
    ∃ d e sep rest, text = d :: e :: sep :: rest ∧ rest.length = 3 * n + 2 := by
  obtain _ | ⟨d, _ | ⟨e, _ | ⟨sep, rest⟩⟩⟩ := text
  case cons.cons.cons =>
    simp only [List.length_cons] at h
    exact ⟨d, e, sep, rest, rfl, by omega⟩
  all_goals
    simp only [List.length_cons, List.length_nil] at h
    omega

/-- Pairs of digits with a separator between each parse to their bytes, high digit first. -/
theorem parsePairs_of_digits {text : List Char} {n : Nat} {digit : Nat → BitVec 4} (hlength : text.length = 3 * n + 2)
    (hhigh : ∀ j < n + 1, hexValue (text.getD (3 * j) ' ') = some (digit (2 * j)))
    (hlow : ∀ j < n + 1, hexValue (text.getD (3 * j + 1) ' ') = some (digit (2 * j + 1)))
    (hsep : ∀ j < n, text.getD (3 * j + 2) ' ' = ':' ∨ text.getD (3 * j + 2) ' ' = '-') :
    parsePairs text = some ((List.range (n + 1)).map fun j => digit (2 * j) ++ digit (2 * j + 1)) := by
  induction n generalizing text digit with
  | zero =>
    obtain ⟨d, e, rfl⟩ := List.length_eq_two.mp hlength
    exact parsePairs_pair_iff.mpr ⟨_, _, hhigh 0 (by decide), hlow 0 (by decide), rfl⟩
  | succ n ih =>
    obtain ⟨d, e, sep, rest, rfl, hrest⟩ := exists_cons_of_length hlength
    have hmore := ih (digit := fun k => digit (k + 2)) hrest (fun j hj => hhigh (j + 1) (by omega))
      (fun j hj => hlow (j + 1) (by omega)) (fun j hj => hsep (j + 1) (by omega))
    refine parsePairs_cons_iff.mpr ⟨_, _, _, hhigh 0 (by omega), hlow 0 (by omega), hsep 0 (by omega), hmore, ?_⟩
    rw [List.range_succ_eq_map, List.map_cons, List.map_map]
    rfl

/-- Only pairs of digits with a separator between each parse. -/
theorem digits_of_parsePairs {text : List Char} {n : Nat} {bytes : List Byte} (hlength : text.length = 3 * n + 2)
    (h : parsePairs text = some bytes) :
    (∀ j < n + 1, hexValue (text.getD (3 * j) ' ') ≠ none ∧ hexValue (text.getD (3 * j + 1) ' ') ≠ none) ∧
      ∀ j < n, text.getD (3 * j + 2) ' ' = ':' ∨ text.getD (3 * j + 2) ' ' = '-' := by
  induction n generalizing text bytes with
  | zero =>
    obtain ⟨d, e, rfl⟩ := List.length_eq_two.mp hlength
    obtain ⟨a, b, hd, he, -⟩ := parsePairs_pair_iff.mp h
    refine ⟨fun j hj => ?_, nofun⟩
    obtain rfl : j = 0 := by omega
    simp [hd, he]
  | succ n ih =>
    obtain ⟨d, e, sep, rest, rfl, hrest⟩ := exists_cons_of_length hlength
    obtain ⟨a, b, more, hd, he, hsep, hmore, -⟩ := parsePairs_cons_iff.mp h
    obtain ⟨hdigits, hseps⟩ := ih hrest hmore
    refine ⟨fun j hj => ?_, fun j hj => ?_⟩
    · cases j with
      | zero => simp [hd, he]
      | succ j => exact hdigits j (by omega)
    · cases j with
      | zero => exact hsep
      | succ j => exact hseps j (by omega)

/-! The parser (rule R177). -/

theorem parseAddress_of_pairs {reader : TextReader} {text : List Char} {bytes : List Byte} (hlength : text.length = 23)
    (h : parsePairs text = some bytes) :
    parseAddress reader text = if textAllowed reader text then
      .address (addressOfBytes 0 (if reader.familyFirst then bytes else bytes.reverse)) else .failure := by
  rw [parseAddress, if_neg (by omega), if_neg (by omega), h]

theorem parseAddress_of_no_pairs {reader : TextReader} {text : List Char} (hlength : text.length = 23)
    (h : parsePairs text = none) : parseAddress reader text = reader.otherwise text := by
  rw [parseAddress, if_neg (by omega), if_neg (by omega), h]

/-! A style's text is allowed to a reader that takes its letters. -/

theorem letterAllowed_hexDigit (upperCase : Bool) (v : BitVec 4) :
    letterAllowed (if upperCase then .upper else .lower) (hexDigit upperCase v) = true := by
  revert upperCase v
  decide

theorem letterAllowed_separator (style : TextStyle) (letters : LetterCase) :
    letterAllowed letters (separator style) = true := by
  obtain h | h := separator_eq style <;> rw [h] <;> cases letters <;> decide

theorem hexDigit_not_separator (upperCase : Bool) (v : BitVec 4) :
    hexDigit upperCase v ≠ ':' ∧ hexDigit upperCase v ≠ '-' := by
  revert upperCase v
  decide

/-- A style writes one separator only. -/
theorem separatorsMixed_formatBytes (style : TextStyle) (l : List Byte) :
    separatorsMixed (formatBytes style l) = false := by
  rw [separatorsMixed, Bool.and_eq_false_iff]
  simp only [List.contains_eq_mem, decide_eq_false_iff_not]
  by_contra hboth
  push Not at hboth
  obtain ⟨hcolon, hhyphen⟩ := hboth
  obtain ⟨v, hv⟩ | hcolon := mem_formatBytes hcolon
  · exact (hexDigit_not_separator _ v).1 hv.symm
  obtain ⟨v, hv⟩ | hhyphen := mem_formatBytes hhyphen
  · exact (hexDigit_not_separator _ v).2 hv.symm
  exact absurd (hcolon.trans hhyphen.symm) (by decide)

theorem textAllowed_formatBytes {reader : TextReader} {style : TextStyle} (l : List Byte)
    (h : reader.letterCase = .both ∨ reader.letterCase = if style.upperCase then .upper else .lower) :
    textAllowed reader (formatBytes style l) = true := by
  rw [textAllowed, separatorsMixed_formatBytes, Bool.not_false, Bool.or_true, Bool.and_true, List.all_eq_true]
  intro c hc
  obtain h | h := h <;> rw [h]
  · rfl
  · obtain ⟨v, rfl⟩ | rfl := mem_formatBytes hc
    · exact letterAllowed_hexDigit _ v
    · exact letterAllowed_separator style _

/-- The bytes of a text, in the order that a style or a reader puts them. -/
theorem exists_cons_of_order (familyFirst : Bool) (a : Word64) :
    ∃ v l, (if familyFirst then addressBytes a else (addressBytes a).reverse) = v :: l ∧ l.length = 7 := by
  cases familyFirst
  · exact ⟨_, _, rfl, rfl⟩
  · exact ⟨_, _, rfl, rfl⟩

/-- What the reader takes as the address of eight pairs, lane by lane (rule R177). -/
theorem extractLsb'_addressOfBytes (familyFirst : Bool) (byte : Nat → Byte) {j : Nat} (hj : j < 8) :
    (addressOfBytes 0 (if familyFirst then (List.range 8).map byte else ((List.range 8).map byte).reverse)).extractLsb'
      (8 * if familyFirst then j else 7 - j) 8 = byte j := by
  have hlane : (if familyFirst then j else 7 - j) < 8 := by split <;> omega
  change byteLane _ (if familyFirst then j else 7 - j) = byte j
  rw [byteLane_addressOfBytes _ hlane]
  cases familyFirst
  · simp [show 7 - j < 8 by omega, show 7 - (7 - j) = j by omega]
  · simp [hj]

/-- Settles O60: a formatted text is allowed pairs of digits; what pairs of digits parse to is known lane by lane; and
nothing else of 23 characters parses as pairs. -/
theorem addressTextRoundTrip : Obligations.AddressTextRoundTrip := by
  refine ⟨fun reader style a => ?_, fun reader text hshort => ?_, fun reader text digit hlength hdigits hseps => ?_,
    fun reader text h => ?_⟩
  · obtain ⟨v, l, hbytes, hl⟩ := exists_cons_of_order style.familyFirst a
    have hlength : (formatAddress style a).length = 23 := by rw [formatAddress, hbytes, length_formatBytes, hl]
    refine ⟨hlength, fun horder hletters => ?_⟩
    have hparse : parsePairs (formatAddress style a) =
        some (if style.familyFirst then addressBytes a else (addressBytes a).reverse) := by
      rw [formatAddress, hbytes, parsePairs_formatBytes]
    have hallowed : textAllowed reader (formatAddress style a) = true := textAllowed_formatBytes _ hletters
    rw [parseAddress_of_pairs hlength hparse, if_pos hallowed, horder]
    cases style.familyFirst <;> simp [addressOfBytes_addressBytes]
  · exact if_pos hshort
  · have hparse := parsePairs_of_digits (n := 7) hlength
      (fun j hj => by simpa [Nat.mul_div_cancel_left] using hdigits (2 * j) (by omega))
      (fun j hj => by
        have := hdigits (2 * j + 1) (by omega)
        rwa [show 3 * ((2 * j + 1) / 2) + (2 * j + 1) % 2 = 3 * j + 1 by omega] at this) hseps
    rw [parseAddress_of_pairs hlength hparse]
    refine ⟨fun hallowed => ⟨_, if_pos hallowed, fun j hj => ?_⟩, fun hnot => if_neg (by simp [hnot])⟩
    exact extractLsb'_addressOfBytes reader.familyFirst (fun j => digit (2 * j) ++ digit (2 * j + 1)) hj
  · obtain hlong | ⟨hlength, hbad⟩ := h
    · rw [parseAddress, if_neg (by omega), if_pos hlong]
    · refine parseAddress_of_no_pairs hlength ?_
      by_contra hsome
      obtain ⟨bytes, hparse⟩ := Option.ne_none_iff_exists'.mp hsome
      obtain ⟨hdigits, hseps⟩ := digits_of_parsePairs (n := 7) hlength hparse
      obtain ⟨k, hk, hnone⟩ | ⟨j, hj, hcolon, hhyphen⟩ := hbad
      · obtain ⟨hhigh, hlow⟩ := hdigits (k / 2) (by omega)
        obtain heven | hodd := Nat.mod_two_eq_zero_or_one k
        · rw [heven] at hnone
          exact hhigh hnone
        · rw [hodd] at hnone
          exact hlow hnone
      · exact (hseps j hj).elim hcolon hhyphen

end Sys2Proof.Machine
